-- ==== Sys2Proof/Config.lean ====
section
/-! DEFINITION. The fixed numbers of the spec, and the free values of the model. The values that the host
sets are not here: they are the values in force, in State (R160). -/

namespace Sys2Proof.Config

/-- The start character of a frame (R6). -/
def startChar : BitVec 8 := 0xC5

/-- The character of the training pattern (R4). -/
def patternChar : BitVec 8 := 0x55

/-- The training pattern: three characters 0x55 (R4). -/
def trainingPattern : List (BitVec 8) := [patternChar, patternChar, patternChar]

/-- A target's answer to the training pattern (R4). -/
def trainingAnswer : BitVec 8 := 0xB3

/-- The largest payload length of a frame (R6). -/
def maxPayload : Nat := 132

/-- The training timer, in ms (R4). -/
def trainingMs : Nat := 50

/-- The gap after the ACK to SET_RATE, in ms (R19, R39). -/
def rateGapMs : Nat := 2

/-- The wait after an out-of-window CHECK result, in ms (R35, R116). -/
def checkWaitMs : Nat := 1

/-- The longest gap between characters inside a frame, in ms (R8). -/
def frameGapMs : Nat := 5

/-- The time of one conversion, in µs (R114). -/
def conversionUs : Nat := 20

/-- The largest result of a conversion, in mV (R114). -/
def maxSample : Nat := 6000

/-- Training attempts of one ATTACH (R5). -/
def maxAttempts : Nat := 4

/-- The WAIT that ends a request with TARGET_STALLED (R23). -/
def maxWaits : Nat := 256

/-- CHECK requests of one visit to POWERING (R116). -/
def maxChecks : Nat := 3

/-- Places in a lane queue (R57). -/
def laneQueueRoom : Nat := 4

/-- Records in the holding queue (R138). -/
def holdingRoom : Nat := 8

/-- Keys in a lane window (R79). -/
def windowKeys : Nat := 7

/-- Bytes of a staging block (R77). -/
def blockBytes : Nat := 128

/-- Staging reads in flight at once (R82). -/
def readsInFlight : Nat := 16

/-- Sectors that one ERASE request asks for at most (R61). -/
def maxSectors : Nat := 255

/-- 1 MiB, the longest segment, region or READBACK (R52, R53). -/
def mib : Nat := 1048576

/-- FREE VALUE: what the 4-byte field of a lane result record shows for a counter that has passed 2^32 - 1. The
spec gives the counters of R30 no width and the field of R168 four bytes, and does not say (log 13). -/
opaque wideCounter : Nat → BitVec 32

/-- FREE VALUE: what a target's flash holds at an address that has been erased. The spec does not say; only the
contract of the target loader reads it, and no command of the PL16 does (log 25). -/
opaque erasedByte : Nat → BitVec 8

end Sys2Proof.Config
end

