-- ==== Sys2Proof/Word.lean ====
section
/-! DEFINITION. The word types of the PL16 and the numbers of its lanes, slots, rings, blocks and entries. -/

namespace Sys2Proof

/-- One byte, as it crosses TXD, RXD or the host bus. -/
abbrev Byte := BitVec 8

/-- Lane 0 to lane 15 (00_scope.md, Conventions). -/
abbrev LaneId := Fin 16

/-- Job slot 0 to 31 (R54). -/
abbrev SlotId := Fin 32

/-- Submission ring 0 to 3 (R122). -/
abbrev RingId := Fin 4

/-- Staging block 0 to 127 (R77). -/
abbrev BlockId := Fin 128

/-- Credential entry 0 to 7 (R96). -/
abbrev CredId := Fin 8

/-- Rate code 0 to 7 (R2). -/
abbrev RateCode := Fin 8

/-- All sixteen lanes in ascending lane order. -/
def allLanes : List LaneId := List.finRange 16

/-- All 32 job slots in ascending order. -/
def allSlots : List SlotId := List.finRange 32

/-- All four rings in ascending order. -/
def allRings : List RingId := List.finRange 4

/-- All 128 staging blocks in ascending order. -/
def allBlocks : List BlockId := List.finRange 128

/-- All eight credential entries in ascending order. -/
def allCreds : List CredId := List.finRange 8

end Sys2Proof
end

