-- ==== Sys2Proof/Syntax.lean ====
section
/-! DEFINITION. The commands of the PL16: one constructor for each row of spec/opcode_table.json, and the types of
their operands. -/

namespace Sys2Proof

/-- Whether the end of a host transfer belongs to the transfer that State holds as in flight, or to one whose
result is discarded: a transfer issued before a reset (R95, R126, R134, R141), a readback write whose lane's part
of the job has ended (R69), or a write of a transaction that a new configuration began again (R141). -/
inductive Epoch where
  | live
  | abandoned
  deriving DecidableEq, Repr

/-- How a host read ended: the host bus reports it failed, or it is good and brings its bytes. -/
inductive HostRead where
  | failed
  | good (bytes : List Byte)
  deriving DecidableEq, Repr

/-- How a host write ended. -/
inductive HostWrite where
  | failed
  | good
  deriving DecidableEq, Repr

/-- One half of CONFIG_ADDR (R165). -/
inductive AddrHalf where
  | low
  | high
  deriving DecidableEq, Repr

/-- A character as a lane's receiver samples it: the eight data bits, the parity bit and the stop bit (R1, R3). -/
structure RxChar where
  data : Byte
  parity : Bool
  stop : Bool
  deriving DecidableEq, Repr

/-- The parity bit that makes the number of ones of data and parity even (R1). -/
def evenParity (b : Byte) : Bool :=
  (List.range 8).foldl (fun p i => xor p (b.getLsbD i)) false

/-- The character that carries `b` without error. -/
def RxChar.ofByte (b : Byte) : RxChar := { data := b, parity := evenParity b, stop := true }

/-- A framing error (stop bit sampled as 0) or a parity error (an odd number of ones in the nine bits) (R3). -/
def RxChar.inError (c : RxChar) : Bool := !c.stop || c.parity != evenParity c.data

/-- The commands of spec/opcode_table.json, in the table's order. -/
inductive Instr where
  /-- POWER_ON_RESET (R164). -/
  | powerOnReset
  /-- SOFT_RESET: a CONTROL write with SOFT_RESET set; its other bits are ignored (R157, R164). -/
  | softReset
  /-- ENABLE: a CONTROL write with ENABLE set and SOFT_RESET clear; `withHalt` says whether HALT is set in the same
  write, which is then applied second (R157, R158). -/
  | enable (withHalt : Bool)
  /-- HALT: a CONTROL write with only HALT set (R157, R161). -/
  | halt
  /-- SUBMIT_WRITE: the word written (R123, R169). -/
  | submitWrite (value : BitVec 32)
  /-- CQ_HEAD_WRITE: the word written (R136, R169). -/
  | cqHeadWrite (value : BitVec 32)
  /-- IRQ_WRITE: the word written (R143, R169). -/
  | irqWrite (value : BitVec 32)
  /-- STATUS_WRITE: the word written (R166, R169). -/
  | statusWrite (value : BitVec 32)
  /-- CONFIG_ADDR_WRITE: the half and the word written (R165). -/
  | configAddrWrite (half : AddrHalf) (value : BitVec 32)
  /-- REGISTER_WRITE_IGNORED: a write of the register window that asks for nothing: its offset, its width in bits
  and its value (R165, R169). -/
  | registerWriteIgnored (offset : Nat) (bits : Nat) (value : BitVec 32)
  /-- CONFIG_READ_END (R158). -/
  | configReadEnd (epoch : Epoch) (result : HostRead)
  /-- DRAIN_COMPLETE (R161). -/
  | drainComplete
  /-- INTAKE_ARBITER_CHOICE (R125). -/
  | intakeArbiterChoice
  /-- RECORD_READ_END (R126). -/
  | recordReadEnd (epoch : Epoch) (result : HostRead)
  /-- LIST_READ_END: the slot of the job whose list was read (R131). -/
  | listReadEnd (epoch : Epoch) (slot : SlotId) (result : HostRead)
  /-- LOAD_CREDENTIAL_READ_END (R98). -/
  | loadCredentialReadEnd (epoch : Epoch) (result : HostRead)
  /-- HOLDING_QUEUE_ENTRY (R138). -/
  | holdingQueueEntry
  /-- COMPLETION_TRANSACTION_START (R140). -/
  | completionTransactionStart
  /-- RESULT_RECORD_WRITE_END: the lane whose record was written (R140). -/
  | resultRecordWriteEnd (epoch : Epoch) (lane : LaneId) (result : HostWrite)
  /-- COMPLETION_RECORD_WRITE_END (R140). -/
  | completionRecordWriteEnd (epoch : Epoch) (result : HostWrite)
  /-- COALESCING_DELAY_EXPIRY (R142). -/
  | coalescingDelayExpiry
  /-- STAGING_READ_ISSUE (R82). -/
  | stagingReadIssue
  /-- STAGING_READ_END: the block read; for an abandoned read the number has no meaning (R83, R95). -/
  | stagingReadEnd (epoch : Epoch) (block : BlockId) (result : HostRead)
  /-- CHUNK_SEND (R64). -/
  | chunkSend (lane : LaneId)
  /-- READBACK_WRITE_END (R69). -/
  | readbackWriteEnd (epoch : Epoch) (lane : LaneId) (result : HostWrite)
  /-- FRAME_SENT (R22). -/
  | frameSent (lane : LaneId)
  /-- RESPONSE_TIMEOUT (R22). -/
  | responseTimeout (lane : LaneId)
  /-- FRAME_RECEIVED: the characters, none in error, that complete a good frame: the last one, or more than one,
  or the whole frame from its start character (R9; log 21). -/
  | frameReceived (lane : LaneId) (chars : List Byte)
  /-- FRAME_SPOILED: the characters that lead to the spoiling one; the spoiling one is `bad` when it is a character
  in error, and else the last of `chars` (an over-long length, or a CRC that does not match) (R8; log 21). -/
  | frameSpoiled (lane : LaneId) (chars : List Byte) (bad : Option RxChar)
  /-- FRAME_GAP_TIMEOUT (R8). -/
  | frameGapTimeout (lane : LaneId)
  /-- TRAINING_PATTERN_SENT (R4). -/
  | trainingPatternSent (lane : LaneId)
  /-- TRAINING_CHARACTER_RECEIVED (R4). -/
  | trainingCharacterReceived (lane : LaneId) (char : RxChar)
  /-- TRAINING_TIMEOUT (R5). -/
  | trainingTimeout (lane : LaneId)
  /-- POWER_SETTLE_EXPIRY (R35). -/
  | powerSettleExpiry (lane : LaneId)
  /-- CHECK_WAIT_EXPIRY (R116). -/
  | checkWaitExpiry (lane : LaneId)
  /-- RESET_PULSE_EXPIRY (R36). -/
  | resetPulseExpiry (lane : LaneId)
  /-- BOOT_SETTLE_EXPIRY (R36). -/
  | bootSettleExpiry (lane : LaneId)
  /-- RATE_GAP_EXPIRY (R39). -/
  | rateGapExpiry (lane : LaneId)
  /-- SUPERVISE_TIMER_EXPIRY (R117). -/
  | superviseTimerExpiry
  /-- CONVERSION_START (R113). -/
  | conversionStart
  /-- CONVERSION_END: the sense voltage in whole mV, which may lie outside the converter's range (R114). -/
  | conversionEnd (senseMv : Int)
  /-- OVERCURRENT_TRIP (R111). -/
  | overcurrentTrip (lane : LaneId)
  /-- FRAME_CHARACTER_RECEIVED (R8). -/
  | frameCharacterReceived (lane : LaneId) (char : RxChar)
  deriving DecidableEq, Repr

end Sys2Proof
end

