-- ==== Sys2Proof/WellFormed.lean ====
section
/-! DEFINITION. Which commands the environment can send: operands that the spec's own formats rule out are
ill-formed. Every meaning is total and leaves the state as it is on such a command (log 2, log 23). -/

namespace Sys2Proof

/-- A host read's bytes number `n`. -/
def HostRead.hasLength (r : HostRead) (n : Nat) : Bool :=
  match r with
  | .failed => true
  | .good bytes => bytes.length == n

/-- The 32-bit register words that a write acts on (R169): CONFIG_ADDR, CONTROL, STATUS, SUBMIT, CQ_HEAD, IRQ. -/
def writableOffsets : List Nat := [0x00, 0x04, 0x08, 0x0C, 0x10, 0x14, 0x18]

/-- The offset of CONTROL (11_record_and_register_formats.md, The register window). -/
def controlOffset : Nat := 0x08

/-- A write that the register window ignores: of fewer than 32 bits, at an offset with no writable register, or to
CONTROL with none of its three command bits set, which asks for nothing (R157, R169). -/
def ignoredWrite (offset bits : Nat) (value : BitVec 32) : Bool :=
  bits < 32 || !writableOffsets.contains offset || (offset == controlOffset && value &&& 7#32 == 0#32)

/-- The well-formed commands. An ignored write wider than 32 bits is ill-formed (DESIGN CHOICE, log 9). -/
def Instr.wf (i : Instr) : Bool :=
  match i with
  | .registerWriteIgnored offset bits value => ignoredWrite offset bits value && bits ≤ 32 && offset < 64
  | .configReadEnd _ r => r.hasLength 64
  | .recordReadEnd _ r => r.hasLength 64
  | .listReadEnd _ _ r =>
    match r with
    | .failed => true
    | .good bytes => bytes.length % 24 == 0 && 24 ≤ bytes.length && bytes.length ≤ 384
  | .loadCredentialReadEnd _ r =>
    match r with
    | .failed => true
    | .good bytes => 4 ≤ bytes.length && bytes.length ≤ 32
  | .stagingReadEnd _ _ r =>
    match r with
    | .failed => true
    | .good bytes => 1 ≤ bytes.length && bytes.length ≤ Config.blockBytes
  | .frameReceived _ chars => 1 ≤ chars.length && chars.length ≤ Config.maxPayload + 6
  | .frameSpoiled _ chars bad =>
    match bad with
    | some c => c.inError && chars.length < Config.maxPayload + 6
    | none => 1 ≤ chars.length && chars.length ≤ Config.maxPayload + 6
  | .powerOnReset => true
  | .softReset => true
  | .enable _ => true
  | .halt => true
  | .submitWrite _ => true
  | .cqHeadWrite _ => true
  | .irqWrite _ => true
  | .statusWrite _ => true
  | .configAddrWrite _ _ => true
  | .drainComplete => true
  | .intakeArbiterChoice => true
  | .holdingQueueEntry => true
  | .completionTransactionStart => true
  | .resultRecordWriteEnd _ _ _ => true
  | .completionRecordWriteEnd _ _ => true
  | .coalescingDelayExpiry => true
  | .stagingReadIssue => true
  | .chunkSend _ => true
  | .readbackWriteEnd _ _ _ => true
  | .frameSent _ => true
  | .responseTimeout _ => true
  | .frameGapTimeout _ => true
  | .trainingPatternSent _ => true
  | .trainingCharacterReceived _ _ => true
  | .trainingTimeout _ => true
  | .powerSettleExpiry _ => true
  | .checkWaitExpiry _ => true
  | .resetPulseExpiry _ => true
  | .bootSettleExpiry _ => true
  | .rateGapExpiry _ => true
  | .superviseTimerExpiry => true
  | .conversionStart => true
  | .conversionEnd _ => true
  | .overcurrentTrip _ => true
  | .frameCharacterReceived _ _ => true

end Sys2Proof
end

