-- ==== Sys2Proof/Decode.lean ====
section
/-! DEFINITION. From bits to commands. The rows of spec/opcode_table.json give no bits, so no word spells a command;
a write of the register window does (R157, R165, R169). -/

namespace Sys2Proof

/-- The command that a word spells by the table's bits: none, since no row of the table has any. -/
def decodeTableWord (nbits w : Nat) : Option Instr :=
  match nbits, w with
  | _, _ => none

/-- The command that a write to CONTROL is (R157): SOFT_RESET alone when its bit is set, else ENABLE before HALT. -/
def commandOfControl (value : BitVec 32) : Instr :=
  if value.getLsbD 2 then .softReset
  else if value.getLsbD 0 then .enable (value.getLsbD 1)
  else if value.getLsbD 1 then .halt
  else .registerWriteIgnored controlOffset 32 value

/-- The command that a write of `bits` bits at `offset` of the register window is (R169). A write wider than 32 bits is
taken as one 32-bit write of `value` at its offset (DESIGN CHOICE, log 9). -/
def commandOfWrite (offset bits : Nat) (value : BitVec 32) : Instr :=
  if bits < 32 then .registerWriteIgnored offset bits value
  else if offset == 0x00 then .configAddrWrite .low value
  else if offset == 0x04 then .configAddrWrite .high value
  else if offset == 0x08 then commandOfControl value
  else if offset == 0x0C then .statusWrite value
  else if offset == 0x10 then .submitWrite value
  else if offset == 0x14 then .cqHeadWrite value
  else if offset == 0x18 then .irqWrite value
  else .registerWriteIgnored offset bits value

end Sys2Proof
end

