-- ==== Sys2Proof/Machine/Bytes.lean ====
section
/-! DEFINITION. Byte orders, bit sets of lanes, and the two cyclic redundancy checks of the Loader Link. -/

namespace Sys2Proof.Machine

/-- The number that bytes hold least significant byte first, as in host memory (R167). -/
def leNat (bs : List Byte) : Nat := bs.foldr (fun b acc => b.toNat + 256 * acc) 0

/-- The number that bytes hold most significant byte first, as in a Loader Link payload (R6, R167). -/
def beNat (bs : List Byte) : Nat := bs.foldl (fun acc b => acc * 256 + b.toNat) 0

/-- `count` bytes of `n`, least significant first. -/
def leBytes : Nat → Nat → List Byte
  | 0, _ => []
  | count + 1, n => BitVec.ofNat 8 n :: leBytes count (n / 256)

/-- `count` bytes of `n`, most significant first. -/
def beBytes (count n : Nat) : List Byte := (leBytes count n).reverse

/-- The bytes of a record from offset `off`, `len` of them. -/
def slice (bs : List Byte) (off len : Nat) : List Byte := (bs.drop off).take len

/-- A field of a host-memory record (R167). -/
def leField (bs : List Byte) (off len : Nat) : Nat := leNat (slice bs off len)

/-- A field of a Loader Link payload (R167). -/
def beField (bs : List Byte) (off len : Nat) : Nat := beNat (slice bs off len)

/-- Lane `i` is in the lane set `m` (bit n is lane n). -/
def inSet (m : BitVec 16) (i : LaneId) : Bool := m.getLsbD i.val

/-- The lane set with lane `i` alone. -/
def laneBit (i : LaneId) : BitVec 16 := BitVec.twoPow 16 i.val

/-- `m` with lane `i` added. -/
def addLane (m : BitVec 16) (i : LaneId) : BitVec 16 := m ||| laneBit i

/-- `m` without lane `i`. -/
def dropLane (m : BitVec 16) (i : LaneId) : BitVec 16 := m &&& ~~~ laneBit i

/-- The lanes of a set in ascending lane order. -/
def lanesOf (m : BitVec 16) : List LaneId := allLanes.filter (inSet m)

/-- The set of the lanes that satisfy `p`. -/
def laneSetOf (p : LaneId → Bool) : BitVec 16 :=
  (allLanes.filter p).foldl addLane 0

/-- A lane's ordinal within a lane set, counted from 0 in ascending lane order (00_scope.md, Conventions). -/
def ordinal (m : BitVec 16) (i : LaneId) : Nat :=
  (lanesOf m).countP (fun j => j.val < i.val)

/-- One message bit of the frame check: the top bit is compared with it, the register shifted left, and the
generator 0x1021 applied if they differed (R7). -/
def crc16Bit (reg : BitVec 16) (m : Bool) : BitVec 16 :=
  if reg.getLsbD 15 != m then (reg <<< 1) ^^^ 0x1021#16 else reg <<< 1

/-- One byte of the frame check, most significant bit first (R7). -/
def crc16Byte (reg : BitVec 16) (b : Byte) : BitVec 16 :=
  [7, 6, 5, 4, 3, 2, 1, 0].foldl (fun r i => crc16Bit r (b.getLsbD i)) reg

/-- The CRC-16 of frames (R7). -/
def crc16 (bs : List Byte) : BitVec 16 := bs.foldl crc16Byte 0xFFFF#16

/-- One message bit of the flash check: the register is shifted right, and the reflected generator applied if the
bit shifted out differed from it (R20). -/
def crc32Bit (reg : BitVec 32) (m : Bool) : BitVec 32 :=
  if reg.getLsbD 0 != m then (reg >>> 1) ^^^ 0xEDB88320#32 else reg >>> 1

/-- One byte of the flash check, least significant bit first (R20). -/
def crc32Byte (reg : BitVec 32) (b : Byte) : BitVec 32 :=
  [0, 1, 2, 3, 4, 5, 6, 7].foldl (fun r i => crc32Bit r (b.getLsbD i)) reg

/-- The initial value of the flash check's register (R20). -/
def crc32Init : BitVec 32 := 0xFFFFFFFF#32

/-- Feeding bytes to the flash check's register in address order (R20, R65). -/
def crc32Feed (reg : BitVec 32) (bs : List Byte) : BitVec 32 := bs.foldl crc32Byte reg

/-- The final inversion of the flash check (R20, R66). -/
def crc32Final (reg : BitVec 32) : BitVec 32 := ~~~ reg

/-- The CRC-32 of flash contents (R20). -/
def crc32 (bs : List Byte) : BitVec 32 := crc32Final (crc32Feed crc32Init bs)

end Sys2Proof.Machine
end

