-- ==== Sys2Proof/Machine/State.lean ====
section
/-! DEFINITION. Everything the spec gives the PL16 to hold, as plain data, block by block, and its values after a
power-on reset. -/

namespace Sys2Proof.Machine

/-- Why the machine would stop. The spec names no such condition (device state FAULT and a lane in FAULTED are
ordinary states), so no meaning raises one. -/
inductive Fault where
  /-- Raised by nothing: it stands because the host's interface asks for a type of faults. Safe. -/
  | unreachable
  deriving DecidableEq, Repr

/-- Why a command would have no meaning. -/
inductive Refusal where
  /-- An arm of exec that has no meaning yet; no arm is left so. Safe. -/
  | notModelled (mnemonic : String)
  deriving DecidableEq, Repr

/-! ### Device Control -/

/-- The device states (R156). -/
inductive DeviceState where
  | off
  | enabling
  | running
  | quiescing
  | halted
  | fault
  deriving DecidableEq, Repr

/-- The last cause in STATUS (R166). -/
inductive Cause where
  | none
  | configInvalid
  | configRead
  | ringRead
  | completionWrite
  deriving DecidableEq, Repr

/-- The three pending bits of IRQ, and also the enables of the interrupt mask (R143, R159). -/
structure IrqBits where
  cq : Bool
  fault : Bool
  halt : Bool
  deriving DecidableEq, Repr

/-- No bit set. -/
def IrqBits.clear : IrqBits := { cq := false, fault := false, halt := false }

/-- The values in force besides the ring geometries, as the last accepted configuration block held them (R160). -/
structure Settings where
  /-- coalescing threshold, 1-64 -/
  threshold : Nat
  /-- coalescing delay, 0-10 000 µs -/
  delay : Nat
  /-- response timeout, 5-1 000 ms -/
  responseTimeout : Nat
  /-- wait cap, 100-60 000 ms -/
  waitCap : Nat
  /-- attempt reserve, 0-3 -/
  reserve : Nat
  /-- supervise period, 1-1 000 ms -/
  supervisePeriod : Nat
  /-- interrupt mask -/
  mask : IrqBits
  deriving DecidableEq, Repr

/-- Device Control (R156, R165, R166). -/
structure Control where
  device : DeviceState
  cause : Cause
  submitError : Bool
  headError : Bool
  configAddr : BitVec 64
  irq : IrqBits
  /-- absent until a block has been accepted after a reset (R156) -/
  inForce : Option Settings
  /-- the address of the configuration block read in flight (R158) -/
  configRead : Option (BitVec 64)
  /-- the SUBMITs kept during ENABLING, one index per ring (R123) -/
  keptSubmit : Vector (Option (BitVec 16)) 4
  keptHalt : Bool
  /-- how many interrupt messages have been sent (R143; log 15) -/
  messages : Nat
  deriving DecidableEq, Repr

/-! ### Jobs as the host posts them -/

/-- The eleven job kinds (R52). -/
inductive JobKind where
  | attach
  | detach
  | erase
  | program
  | verify
  | readback
  | protect
  | barrier
  | loadCredential
  | clearCredential
  | abort
  deriving DecidableEq, Repr

/-- An ATTACH's credential selector (R100). -/
inductive Selector where
  | entry (n : CredId)
  | auto
  | none
  deriving DecidableEq, Repr

/-- The parameters of an ATTACH, in range (R127). -/
structure AttachParams where
  startRate : RateCode
  targetRate : RateCode
  powerSettle : Nat
  resetPulse : Nat
  bootSettle : Nat
  vmin : Nat
  vmax : Nat
  selector : Selector
  deriving DecidableEq, Repr

/-- The kind-specific fields of a job (R52). -/
inductive Params where
  | attach (p : AttachParams)
  | detach (entryAddr : BitVec 32)
  | erase
  | program
  | verify
  | readback (target : BitVec 32) (length : Nat) (dest : BitVec 64) (stride : Nat)
  | protect (level : BitVec 8)
  | barrier
  | loadCredential (entry : CredId) (length : Nat) (cls mask : BitVec 16)
  /-- `none` is ALL -/
  | clearCredential (entry : Option CredId)
  | abort (ring : RingId) (tag : BitVec 16)
  deriving DecidableEq, Repr

/-- The kind of a job with these fields. -/
def Params.kind : Params → JobKind
  | .attach _ => .attach
  | .detach _ => .detach
  | .erase => .erase
  | .program => .program
  | .verify => .verify
  | .readback _ _ _ _ => .readback
  | .protect _ => .protect
  | .barrier => .barrier
  | .loadCredential _ _ _ _ => .loadCredential
  | .clearCredential _ => .clearCredential
  | .abort _ _ => .abort

/-- A job record that has passed field validation (R52, R127). -/
structure JobSpec where
  tag : BitVec 16
  /-- lane set, bit n is lane n -/
  lanes : BitVec 16
  /-- bit 0 IRQ_NOW, bit 1 RUN, bit 2 ERASE_ALL, bit 3 ERASE_BEFORE, bit 4 VERIFY_AFTER -/
  flags : BitVec 16
  retryLimit : Nat
  listAddr : BitVec 64
  listCount : Nat
  resultAddr : BitVec 64
  params : Params
  deriving DecidableEq, Repr

/-- An entry of a job's list: a segment or a region (R53). -/
structure Segment where
  hostAddr : BitVec 64
  target : BitVec 32
  length : Nat
  crc : BitVec 32
  hasCrc : Bool
  deriving DecidableEq, Repr

/-! ### Loader Link -/

/-- The nine request kinds (R11). -/
inductive ReqKind where
  | identify
  | unlock
  | erase
  | write
  | read
  | sum
  | protect
  | setRate
  | start
  deriving DecidableEq, Repr

/-- The ten reasons of a NAK (R12). -/
inductive NakReason where
  | frame
  | kind
  | range
  | align
  | locked
  | auth
  | guarded
  | program
  | erase
  | rate
  deriving DecidableEq, Repr

/-- The identity record of a HELLO (R13). -/
structure Identity where
  deviceClass : BitVec 16
  loaderVersion : BitVec 8
  level : BitVec 8
  flashBase : BitVec 32
  flashSize : BitVec 32
  sectorSize : BitVec 32
  granule : BitVec 8
  maxWrite : BitVec 8
  credentialRequired : Bool
  attempts : BitVec 8
  rates : BitVec 8
  deriving DecidableEq, Repr

/-- The outstanding request (R21), with the payload that a retransmission repeats (R6). -/
structure Request where
  kind : ReqKind
  seq : BitVec 8
  retries : Nat
  waits : Nat
  /-- the response timer: not running, or the ms it was last started with -/
  timer : Option Nat
  payload : List Byte
  deriving DecidableEq, Repr

/-- What goes out on TXD (R1, R4, R25). -/
inductive Tx where
  | idle
  /-- the characters of a training attempt's pattern (R4) -/
  | pattern (chars : List Byte)
  /-- a frame; `live` while it is a transmission of the outstanding request -/
  | frame (bytes : List Byte) (live : Bool)
  deriving DecidableEq, Repr

/-! ### Lanes -/

/-- The eight lane states (R27). -/
inductive LaneState where
  | off
  | powering
  | resetting
  | training
  | ready
  | busy
  | released
  | faulted
  deriving DecidableEq, Repr

/-- The eight fault codes (R45). -/
inductive FaultCode where
  | noTarget
  | noResponse
  | targetStalled
  | protocol
  | rateSwitch
  | supplyRange
  | brownout
  | overcurrent
  deriving DecidableEq, Repr

/-- The outcomes of a lane's part of a job (R72). -/
inductive LaneOutcome where
  | ok
  | aborted
  | laneFaulted
  | notAttached
  | faulted (code : FaultCode)
  | targetRefused
  | guarded
  | notUnlocked
  | range
  | align
  | imageCheck
  | verifyMismatch
  | hostRead
  | hostWrite
  | noCredential
  | authReserve
  | authRejected
  | rateUnsupported
  deriving DecidableEq, Repr

/-- A refused request, kept by the lane (R12, R29). -/
structure LastRefusal where
  reason : NakReason
  kind : ReqKind
  addr : Option (BitVec 32)
  deriving DecidableEq, Repr

/-- A lane event: fault code and sample (R49). -/
structure LaneEvent where
  code : FaultCode
  sample : Nat
  deriving DecidableEq, Repr

/-- The step of the current job that is in hand (R30). -/
inductive Step where
  /-- no job, or a job that is current and not taken up (R58) -/
  | none
  /-- ATTACH in POWERING, RESETTING or TRAINING (R35, R36) -/
  | attachPhase
  /-- ATTACH: the first IDENTIFY (R37) -/
  | attachIdentify
  /-- ATTACH: SET_RATE (R38) -/
  | attachSetRate
  /-- ATTACH: the 2 ms gap (R39) -/
  | attachRateGap
  /-- ATTACH: the IDENTIFY at the new rate (R39) -/
  | attachIdentifyAgain
  /-- ATTACH: the credential step (R103) -/
  | attachCredential
  /-- DETACH with RUN: START (R42) -/
  | detachStart
  /-- ERASE with ERASE_ALL (R61) -/
  | eraseAll
  /-- ERASE: the region in hand and its sectors already erased (R61) -/
  | eraseRegion (index : Nat) (done : Nat)
  /-- PROGRAM: the erase step of a segment (R63) -/
  | programErase (segment : Nat)
  /-- PROGRAM: the write step of a segment (R64) -/
  | programWrite (segment : Nat)
  /-- PROGRAM: the verify step of a segment (R66) -/
  | programVerify (segment : Nat)
  /-- VERIFY: the segment in hand (R67) -/
  | verifySum (index : Nat)
  /-- READBACK: the READ at this offset (R68) -/
  | readbackRead (offset : Nat)
  /-- READBACK: the host write of the payload read at this offset (R68) -/
  | readbackWrite (offset : Nat)
  /-- PROTECT (R70) -/
  | protect
  deriving DecidableEq, Repr

/-- The outputs of a lane whose changes have an order in one happening (R26). -/
inductive OutputPin where
  | mode
  | reset
  | power
  deriving DecidableEq, Repr

/-- A change of an output: asserted or deasserted, and for POWER on or off (R26). -/
structure OutputChange where
  pin : OutputPin
  on : Bool
  deriving DecidableEq, Repr

/-- A host write with its address and bytes. -/
structure HostWriteOut where
  addr : BitVec 64
  bytes : List Byte
  deriving DecidableEq, Repr

/-- A lane: its pins, its Lane Engine's context, its supply fields and its queue (R26, R29, R30, R31, R57, R112). -/
structure Lane where
  /-- POWER switch on -/
  power : Bool
  /-- RESET asserted -/
  resetPin : Bool
  /-- MODE asserted -/
  modePin : Bool
  /-- every change of MODE, RESET and POWER so far, oldest first (R26; log 40) -/
  outputs : List OutputChange
  tx : Tx
  state : LaneState
  rate : RateCode
  identity : Option Identity
  unlocked : Bool
  pinned : Option CredId
  nextSeq : BitVec 8
  attempts : Nat
  outstanding : Option Request
  lastRefusal : Option LastRefusal
  faultCode : Option FaultCode
  pendingEvent : Option LaneEvent
  /-- the lane queue, its head first; the head is the current job (R57) -/
  queue : List SlotId
  step : Step
  segment : Nat
  block : Nat
  offset : Nat
  erasedThrough : Nat
  crc : BitVec 32
  sent : Nat
  retransmits : Nat
  linkErrors : Nat
  bytes : Nat
  vmin : Nat
  vmax : Nat
  lastSample : Nat
  outOfWindow : Nat
  checkCount : Nat
  powerSettle : Option Nat
  checkWait : Option Nat
  resetPulse : Option Nat
  bootSettle : Option Nat
  training : Option Nat
  /-- the 2 ms gap, with the rate code it will set (R39) -/
  rateGap : Option RateCode
  /-- outside a frame, or the characters of the frame so far, its start character first (R8) -/
  rx : Option (List Byte)
  /-- the readback host write in flight, one at most: the current job's in the step that writes, and else one that a
  job whose part on the lane has ended left behind, and whose result is discarded (R68, R69; log 39) -/
  readback : Option HostWriteOut
  checkPending : Bool
  supervisePending : Bool
  deriving DecidableEq, Repr

/-- A lane after a power-on reset or a SOFT_RESET (R51). -/
def Lane.reset : Lane where
  power := false
  resetPin := true
  modePin := false
  outputs := []
  tx := .idle
  state := .off
  rate := 0
  identity := none
  unlocked := false
  pinned := none
  nextSeq := 1
  attempts := 0
  outstanding := none
  lastRefusal := none
  faultCode := none
  pendingEvent := none
  queue := []
  step := .none
  segment := 0
  block := 0
  offset := 0
  erasedThrough := 0
  crc := 0xFFFFFFFF
  sent := 0
  retransmits := 0
  linkErrors := 0
  bytes := 0
  vmin := 0
  vmax := 0
  lastSample := 0
  outOfWindow := 0
  checkCount := 0
  powerSettle := none
  checkWait := none
  resetPulse := none
  bootSettle := none
  training := none
  rateGap := none
  rx := none
  readback := none
  checkPending := false
  supervisePending := false

/-! ### The Job Manager -/

/-- The statuses of a completion record (R137, R168). -/
inductive Status where
  | success
  | partly
  | failed
  | aborted
  | invalid
  | dupTag
  | hostError
  | credentialBusy
  | notFound
  | done
  deriving DecidableEq, Repr

/-- The INVALID detail codes (R127, R131). -/
inductive Detail where
  | none
  | badKind
  | badLanes
  | badCount
  | badParam
  | badAlign
  | badSegmentOrder
  deriving DecidableEq, Repr

/-- The fields of a result record that depend on the job's kind: the counters, or for an ATTACH the identity and
the unlocked flag (R41, R75). -/
inductive ResultBody where
  | counters (sent retransmits linkErrors bytes : Nat)
  | attach (identity : Option Identity) (unlocked : Bool)
  deriving DecidableEq, Repr

/-- The content of a lane result record, taken when the outcome is set (R75). -/
structure LaneResult where
  outcome : LaneOutcome
  nak : Option NakReason
  kind : Option ReqKind
  addr : Option (BitVec 32)
  sample : Nat
  body : ResultBody
  deriving DecidableEq, Repr

/-- The states of a slot that is not FREE (R55). -/
inductive SlotState where
  | intake
  | queued
  | active
  | waiting
  | retiring
  deriving DecidableEq, Repr

/-- The status and masks that a RETIRING job's record carries (R73). -/
structure FinalStatus where
  status : Status
  okMask : BitVec 16
  failMask : BitVec 16
  deriving DecidableEq, Repr

/-- What a job slot holds (R54). -/
structure Job where
  state : SlotState
  ring : RingId
  spec : JobSpec
  list : List Segment
  results : Vector (Option LaneResult) 16
  final : Option FinalStatus
  waitSet : List SlotId
  /-- the image-failed mark, with the failed block's segment and block index (R88) -/
  imageFailed : Option (Nat × Nat)
  abortMark : Bool
  /-- the list read is in flight (R131) -/
  listRead : Bool
  /-- the completion that an INTAKE job whose list read has ended waits to post (R131) -/
  intakeEnd : Option (Status × Detail)
  deriving DecidableEq, Repr

/-! ### The Intake Unit -/

/-- Why a ring's held entry waits (R122). -/
inductive Blocked where
  | none
  | slot
  | laneQueue
  deriving DecidableEq, Repr

/-- A ring record (R122). -/
structure Ring where
  base : BitVec 64
  size : Nat
  producer : Nat
  consumer : Nat
  held : Option JobSpec
  blocked : Blocked
  barrierPending : Bool
  inIntake : Bool
  deriving DecidableEq, Repr

/-- A ring after reset (R122). -/
def Ring.reset : Ring where
  base := 0
  size := 0
  producer := 0
  consumer := 0
  held := none
  blocked := .none
  barrierPending := false
  inIntake := false

/-- A completion at intake (R133, R138). -/
structure IntakeCompletion where
  ring : RingId
  tag : BitVec 16
  status : Status
  detail : Detail
  irqNow : Bool
  deriving DecidableEq, Repr

/-- What the intake engine has in hand (R125, R126, R129, R133). -/
inductive Engine where
  | free
  | recordRead (ring : RingId) (addr : BitVec 64)
  | credentialRead (ring : RingId) (spec : JobSpec)
  | waiting (completion : IntakeCompletion)
  deriving DecidableEq, Repr

/-- The Intake Unit. -/
structure Intake where
  rings : Vector Ring 4
  arbiter : RingId
  engine : Engine
  deriving DecidableEq, Repr

/-! ### The Staging Pool -/

/-- The condition of a block in use (R77). -/
inductive BlockState where
  | waiting
  | inFlight
  | ready (data : List Byte)
  deriving DecidableEq, Repr

/-- A block record (R77). -/
structure Block where
  slot : SlotId
  segment : Nat
  index : Nat
  valid : Nat
  state : BlockState
  /-- reference set, bit n is lane n -/
  refs : BitVec 16
  deriving DecidableEq, Repr

/-- The Staging Pool (R77, R78, R82, R95). -/
structure Pool where
  blocks : Vector (Option Block) 128
  freeList : List BlockId
  fetchQueue : List BlockId
  /-- reads issued before a reset that have not ended (R95) -/
  stale : Nat
  deriving DecidableEq, Repr

/-- The pool after reset, when no older read is in flight (R78). -/
def Pool.reset : Pool where
  blocks := Vector.replicate 128 none
  freeList := allBlocks
  fetchQueue := []
  stale := 0

/-! ### The Credential Table -/

/-- A credential entry (R96). -/
structure Credential where
  valid : Bool
  cls : BitVec 16
  mask : BitVec 16
  length : Nat
  /-- 32 bytes, those beyond the length 0 -/
  bytes : List Byte
  pins : Nat
  deriving DecidableEq, Repr

/-- An entry after reset (R96). -/
def Credential.reset : Credential where
  valid := false
  cls := 0
  mask := 0
  length := 0
  bytes := List.replicate 32 0
  pins := 0

/-! ### The Supply Monitor -/

/-- The classes of converter request (R112). -/
inductive SampleClass where
  | check
  | supervise
  deriving DecidableEq, Repr

/-- A conversion in progress (R114). -/
structure Conversion where
  lane : LaneId
  cls : SampleClass
  void : Bool
  deriving DecidableEq, Repr

/-- The Supply Monitor's own state (R113, R117). -/
structure Supply where
  converter : Option Conversion
  checkPtr : LaneId
  supervisePtr : LaneId
  /-- the supervise timer: stopped, or running at this period in ms -/
  timer : Option Nat
  deriving DecidableEq, Repr

/-- The Supply Monitor after reset (R121). -/
def Supply.reset : Supply where
  converter := none
  checkPtr := 15
  supervisePtr := 15
  timer := none

/-! ### The Completion Writer -/

/-- The completion ring state (R135). -/
structure CompletionRing where
  base : BitVec 64
  size : Nat
  tail : Nat
  head : Nat
  unreleased : Nat
  phase : Bool
  deriving DecidableEq, Repr

/-- A record of the holding queue (R138). -/
inductive HeldRecord where
  | job (slot : SlotId)
  | intake (completion : IntakeCompletion)
  | event (lane : LaneId) (event : LaneEvent)
  deriving DecidableEq, Repr

/-- A candidate for the holding queue (R138). -/
inductive Candidate where
  /-- a RETIRING job -/
  | job (slot : SlotId)
  /-- the intake engine's entry in hand -/
  | engine
  /-- an INTAKE job whose list read has ended badly (R131) -/
  | intakeJob (slot : SlotId)
  /-- a lane's pending event -/
  | laneEvent (lane : LaneId)
  deriving DecidableEq, Repr

/-- A lane result record write in flight (R140). -/
structure ResultWrite where
  lane : LaneId
  out : HostWriteOut
  deriving DecidableEq, Repr

/-- The head record's transaction (R140). -/
inductive Transaction where
  /-- stage 1: the writes still in flight; empty when stage 2 must wait for the device to leave ENABLING -/
  | results (writes : List ResultWrite)
  /-- stage 2 -/
  | completion (out : HostWriteOut)
  deriving DecidableEq, Repr

/-- The Completion Writer (R135, R138, R140, R142). -/
structure Writer where
  ring : CompletionRing
  holding : List HeldRecord
  waitList : List Candidate
  txn : Option Transaction
  count : Nat
  /-- the coalescing delay timer: stopped, or running at this delay in µs -/
  delayTimer : Option Nat
  deriving DecidableEq, Repr

/-- The Completion Writer after reset (R135, R138, R142). -/
def Writer.reset : Writer where
  ring := { base := 0, size := 0, tail := 0, head := 0, unreleased := 0, phase := true }
  holding := []
  waitList := []
  txn := none
  count := 0
  delayTimer := none

/-! ### The whole part -/

/-- The PL16, and the queue of the commands that wait for it. -/
structure State where
  ctl : Control
  intake : Intake
  slots : Vector (Option Job) 32
  lanes : Vector Lane 16
  pool : Pool
  creds : Vector Credential 8
  supply : Supply
  writer : Writer
  pending : List Instr
  deriving DecidableEq, Repr

/-- Device Control after a power-on reset (R164, R166). -/
def Control.reset : Control where
  device := .off
  cause := .none
  submitError := false
  headError := false
  configAddr := 0
  irq := IrqBits.clear
  inForce := none
  configRead := none
  keptSubmit := Vector.replicate 4 none
  keptHalt := false
  messages := 0

/-- The Intake Unit after reset (R122, R125). -/
def Intake.reset : Intake where
  rings := Vector.replicate 4 Ring.reset
  arbiter := 3
  engine := .free

/-- The machine right after a power-on reset (R164), with no command waiting. -/
def State.reset : State where
  ctl := Control.reset
  intake := Intake.reset
  slots := Vector.replicate 32 none
  lanes := Vector.replicate 16 Lane.reset
  pool := Pool.reset
  creds := Vector.replicate 8 Credential.reset
  supply := Supply.reset
  writer := Writer.reset
  pending := []

end Sys2Proof.Machine
end

