-- ==== Sys2Proof/Machine/Flags.lean ====
section
/-! DEFINITION. The numeric codes of the spec and the register window as a read shows it (R28, R165, R166, R168,
R169). -/

namespace Sys2Proof.Machine

/-- Device state codes (11_record_and_register_formats.md, The register window). -/
def DeviceState.code : DeviceState → Nat
  | .off => 0
  | .enabling => 1
  | .running => 2
  | .quiescing => 3
  | .halted => 4
  | .fault => 5

/-- Last cause codes (The register window). -/
def Cause.code : Cause → Nat
  | .none => 0
  | .configInvalid => 1
  | .configRead => 2
  | .ringRead => 3
  | .completionWrite => 4

/-- Lane state codes (R28, The register window). -/
def LaneState.code : LaneState → Nat
  | .off => 0
  | .powering => 1
  | .resetting => 2
  | .training => 3
  | .ready => 4
  | .busy => 5
  | .released => 6
  | .faulted => 7

/-- Fault codes as outcome codes (R168). -/
def FaultCode.code : FaultCode → Nat
  | .noTarget => 16
  | .noResponse => 17
  | .targetStalled => 18
  | .protocol => 19
  | .rateSwitch => 20
  | .supplyRange => 21
  | .brownout => 22
  | .overcurrent => 23

/-- Outcome codes (R168). -/
def LaneOutcome.code : LaneOutcome → Nat
  | .ok => 0
  | .aborted => 1
  | .laneFaulted => 2
  | .notAttached => 3
  | .faulted c => c.code
  | .targetRefused => 32
  | .guarded => 33
  | .notUnlocked => 34
  | .range => 35
  | .align => 36
  | .imageCheck => 37
  | .verifyMismatch => 38
  | .hostRead => 39
  | .hostWrite => 40
  | .noCredential => 41
  | .authReserve => 42
  | .authRejected => 43
  | .rateUnsupported => 44

/-- Status codes (R168). -/
def Status.code : Status → Nat
  | .success => 1
  | .partly => 2
  | .failed => 3
  | .aborted => 4
  | .invalid => 8
  | .dupTag => 9
  | .hostError => 10
  | .credentialBusy => 11
  | .notFound => 12
  | .done => 13

/-- Detail codes (R168). -/
def Detail.code : Detail → Nat
  | .none => 0
  | .badKind => 1
  | .badLanes => 2
  | .badCount => 3
  | .badParam => 4
  | .badAlign => 5
  | .badSegmentOrder => 6

/-- Request kind codes (11.1 Loader Link frames). -/
def ReqKind.code : ReqKind → Byte
  | .identify => 0x01
  | .unlock => 0x02
  | .erase => 0x03
  | .write => 0x04
  | .read => 0x05
  | .sum => 0x06
  | .protect => 0x07
  | .setRate => 0x08
  | .start => 0x09

/-- NAK reason codes (11.1 Loader Link frames). -/
def NakReason.code : NakReason → Byte
  | .frame => 1
  | .kind => 2
  | .range => 3
  | .align => 4
  | .locked => 5
  | .auth => 6
  | .guarded => 7
  | .program => 8
  | .erase => 9
  | .rate => 10

/-- The reason that a NAK's reason byte names: one of the ten, or none (R10, R12). -/
def NakReason.ofCode (b : Byte) : Option NakReason :=
  [NakReason.frame, .kind, .range, .align, .locked, .auth, .guarded, .program, .erase, .rate].find?
    (fun r => r.code == b)

/-- The slots that are not FREE, 0 to 32 (R54, R166). -/
def slotsInUse (s : State) : Nat := allSlots.countP (fun i => s.slots[i].isSome)

/-- The value 1 at bit `pos` of a register word when `b` is set. -/
def bitAt (b : Bool) (pos : Nat) : Nat := if b then 2 ^ pos else 0

/-- STATUS as a read returns it (R166, R169). -/
def statusWord (s : State) : BitVec 32 :=
  BitVec.ofNat 32 (s.ctl.device.code + s.ctl.cause.code * 2 ^ 4 + bitAt s.ctl.submitError 8
    + bitAt s.ctl.headError 9 + slotsInUse s * 2 ^ 16)

/-- IRQ as a read returns it (R143, R169). -/
def irqWord (s : State) : BitVec 32 :=
  BitVec.ofNat 32 (bitAt s.ctl.irq.cq 0 + bitAt s.ctl.irq.fault 1 + bitAt s.ctl.irq.halt 2)

/-- The codes of eight lanes from lane `first`, four bits each (R28, R169). -/
def laneStateWord (s : State) (first : Nat) : BitVec 32 :=
  BitVec.ofNat 32 ((List.range 8).foldl
    (fun acc k => acc + (if h : first + k < 16 then (s.lanes[first + k].state.code) else 0) * 2 ^ (4 * k)) 0)

/-- The word at an offset of the register window as a read returns it: CONTROL, SUBMIT and the offsets that the
table does not list read as 0 (R165, R169). A read has no effect on the part, so it is no command. -/
def readWord (s : State) (offset : Nat) : BitVec 32 :=
  if offset == 0x00 then s.ctl.configAddr.extractLsb' 0 32
  else if offset == 0x04 then s.ctl.configAddr.extractLsb' 32 32
  else if offset == 0x0C then statusWord s
  else if offset == 0x14 then BitVec.ofNat 32 s.writer.ring.head
  else if offset == 0x18 then irqWord s
  else if offset == 0x20 then laneStateWord s 0
  else if offset == 0x24 then laneStateWord s 8
  else 0

/-- The byte of the register window at an address: a read of any width returns the addressed bytes (R169). Byte k of a
word is its bits 8k to 8k+7, the least significant at the lowest address (DESIGN CHOICE, log 37). -/
def readByte (s : State) (addr : Nat) : Byte :=
  (readWord s (addr / 4 * 4)).extractLsb' (8 * (addr % 4)) 8

/-- A read of `count` bytes from an address of the register window, of any width (R169). One that takes in bytes of several
words takes all of them from one state (DESIGN CHOICE, log 42). -/
def readBytes (s : State) (addr count : Nat) : List Byte :=
  (List.range count).map (fun k => readByte s (addr + k))

end Sys2Proof.Machine
end

