-- ==== Sys2Proof/Machine/Operands.lean ====
section
/-! DEFINITION. The forms in which data reaches and leaves the PL16: Loader Link frames and payloads, and the
host-memory records (R6 to R13, R127, R131, R159, R167, R168). -/

namespace Sys2Proof.Machine

/-! ### Frames -/

/-- The bytes that the frame check covers: length, seq, kind and payload (R6, R7). -/
def frameBody (seq kind : Byte) (payload : List Byte) : List Byte :=
  BitVec.ofNat 8 payload.length :: seq :: kind :: payload

/-- A whole frame: start character, body, and the CRC-16 high byte first (R6). -/
def buildFrame (seq kind : Byte) (payload : List Byte) : List Byte :=
  Config.startChar :: (frameBody seq kind payload ++ beBytes 2 (crc16 (frameBody seq kind payload)).toNat)

/-- Where the receiver stands after some characters of a frame, its start character first (R8). -/
inductive RxStatus where
  /-- no frame, or characters beyond the frame's end -/
  | notAFrame
  /-- inside the frame -/
  | inside
  /-- the length byte is greater than 132 -/
  | tooLong
  /-- all characters are there and the CRC matches -/
  | good (seq kind : Byte) (payload : List Byte)
  /-- all characters are there and the CRC does not match -/
  | badCrc
  deriving DecidableEq, Repr

/-- The receiver's standing after the characters `bs` (R6, R8). -/
def rxStatus (bs : List Byte) : RxStatus :=
  match bs with
  | [] => .notAFrame
  | first :: rest =>
    if first != Config.startChar then .notAFrame
    else match rest with
      | [] => .inside
      | len :: tail =>
        if Config.maxPayload < len.toNat then (if tail.isEmpty then .tooLong else .notAFrame)
        else if tail.length < len.toNat + 4 then .inside
        else if len.toNat + 4 < tail.length then .notAFrame
        else
          if crc16 (len :: tail.take (len.toNat + 2)) = BitVec.ofNat 16 (beNat (tail.drop (len.toNat + 2))) then
            .good (tail.getD 0 0) (tail.getD 1 0) ((tail.drop 2).take len.toNat)
          else .badCrc

/-- A character as it stands on the line: the start bit, eight data bits least significant first, the even parity bit
and the stop bit (R1), which is 1 (R3). R1 does not name the start bit's level: it is 0 (PRESUMED, log 46). -/
def characterBits (b : Byte) : List Bool :=
  false :: ((List.range 8).map b.getLsbD ++ [evenParity b, true])

/-- The bits of a frame on the line: its characters back to back (R1), each with a start bit of 0 (PRESUMED, log 46). -/
def frameBits (bs : List Byte) : List Bool := bs.flatMap characterBits

/-- The characters that go out on TXD, in order (R4, R6). -/
def Tx.characters (t : Tx) : List Byte :=
  match t with
  | .idle => []
  | .pattern chars => chars
  | .frame bytes _ => bytes

/-- The bits of what goes out on TXD; with nothing to send there are none, and the line is idle (R1). R1 does not name
the idle line's level, nor the start bit's: idle is 1 and the start bit 0 (PRESUMED, log 46). -/
def Tx.bits (t : Tx) : List Bool := frameBits t.characters

/-- The bit rate of a rate code, in bit/s (R2). -/
def bitRate (r : RateCode) : Nat :=
  match r with
  | 0 => 9600
  | 1 => 19200
  | 2 => 38400
  | 3 => 57600
  | 4 => 115200
  | 5 => 230400
  | 6 => 460800
  | 7 => 921600

/-- The bound of R170 on the time, in ms, that a request stays outstanding: `r` the retry limit, `s` the time to
send the frame, `t` the response timeout, `c` the wait cap. -/
def requestBound (r s t c : Nat) : Nat := (r + 1) * (s + t) + 255 * c

/-! ### Answers -/

/-- The identity record of a 24-byte HELLO payload (R13, 11.1 Loader Link frames). -/
def parseIdentity (p : List Byte) : Identity where
  deviceClass := BitVec.ofNat 16 (beField p 0 2)
  loaderVersion := p.getD 2 0
  level := p.getD 3 0
  flashBase := BitVec.ofNat 32 (beField p 4 4)
  flashSize := BitVec.ofNat 32 (beField p 8 4)
  sectorSize := BitVec.ofNat 32 (beField p 12 4)
  granule := p.getD 16 0
  maxWrite := p.getD 17 0
  credentialRequired := (p.getD 18 0).getLsbD 0
  attempts := p.getD 19 0
  rates := p.getD 20 0

/-- The sector sizes that the PL16 accepts: powers of two from 256 to 65 536 (R13). -/
def sectorSizes : List Nat := [256, 512, 1024, 2048, 4096, 8192, 16384, 32768, 65536]

/-- The identity record holds values that the PL16 accepts, on a lane at this rate code (R13). -/
def Identity.accepted (d : Identity) (rate : RateCode) : Bool :=
  d.flashBase.toNat + d.flashSize.toNat ≤ 2 ^ 32
    && sectorSizes.contains d.sectorSize.toNat
    && Config.mib ≤ d.flashSize.toNat && d.flashSize.toNat ≤ 16 * Config.mib
    && d.flashSize.toNat % d.sectorSize.toNat == 0
    && [1, 2, 4, 8, 16].contains d.granule.toNat
    && 16 ≤ d.maxWrite.toNat && d.maxWrite.toNat ≤ 128 && d.maxWrite.toNat % d.granule.toNat == 0
    && d.level.toNat ≤ 2
    && d.attempts.toNat ≤ 15
    && d.rates.getLsbD rate.val

/-- The code of the one good answer of a request kind: HELLO, DATA or ACK (R11). -/
def ReqKind.goodCode : ReqKind → Byte
  | .identify => 0x83
  | .read => 0x82
  | .unlock => 0x81
  | .erase => 0x81
  | .write => 0x81
  | .sum => 0x81
  | .protect => 0x81
  | .setRate => 0x81
  | .start => 0x81

/-- The code of WAIT (11.1). -/
def waitCode : Byte := 0x84

/-- The code of NAK (11.1). -/
def nakCode : Byte := 0x85

/-- The length that a READ asks for (R11). -/
def readLength (req : Request) : Nat := beField req.payload 4 2

/-- The payload has the form that the good answer to the request requires (R10). -/
def goodForm (req : Request) (rate : RateCode) (payload : List Byte) : Bool :=
  match req.kind with
  | .identify => payload.length == 24 && (parseIdentity payload).accepted rate
  | .erase => payload.length == 1 && (payload.getD 0 0).toNat ≤ 2
  | .sum => payload.length == 4
  | .read => payload.length == readLength req
  | .unlock => payload.isEmpty
  | .write => payload.isEmpty
  | .protect => payload.isEmpty
  | .setRate => payload.isEmpty
  | .start => payload.isEmpty

/-- What a matching frame is to the outstanding request (R9 step 3, R10). -/
inductive Answer where
  /-- a kind or a form that the request does not allow -/
  | breach
  | wait (estimate : Nat)
  | nak (reason : NakReason)
  | good
  deriving DecidableEq, Repr

/-- A matching frame judged by its kind and payload (R9, R10). -/
def classify (req : Request) (rate : RateCode) (kind : Byte) (payload : List Byte) : Answer :=
  if kind = waitCode then
    if payload.length == 2 && beNat payload != 0 then .wait (beNat payload) else .breach
  else if kind = nakCode then
    match payload with
    | [b] =>
      match NakReason.ofCode b with
      | some r => .nak r
      | none => .breach
    | _ => .breach
  else if kind = req.kind.goodCode then
    if goodForm req rate payload then .good else .breach
  else .breach

/-- The address that an ERASE, WRITE, READ or SUM carries (R11, R12). -/
def requestAddr (kind : ReqKind) (payload : List Byte) : Option (BitVec 32) :=
  match kind with
  | .erase => some (BitVec.ofNat 32 (beField payload 0 4))
  | .write => some (BitVec.ofNat 32 (beField payload 0 4))
  | .read => some (BitVec.ofNat 32 (beField payload 0 4))
  | .sum => some (BitVec.ofNat 32 (beField payload 0 4))
  | .identify => none
  | .unlock => none
  | .protect => none
  | .setRate => none
  | .start => none

/-! ### Job records -/

/-- The flags of a job (R52, 11.2). -/
def JobSpec.irqNow (j : JobSpec) : Bool := j.flags.getLsbD 0
/-- RUN (R52). -/
def JobSpec.run (j : JobSpec) : Bool := j.flags.getLsbD 1
/-- ERASE_ALL (R52). -/
def JobSpec.eraseAll (j : JobSpec) : Bool := j.flags.getLsbD 2
/-- ERASE_BEFORE (R52). -/
def JobSpec.eraseBefore (j : JobSpec) : Bool := j.flags.getLsbD 3
/-- VERIFY_AFTER (R52). -/
def JobSpec.verifyAfter (j : JobSpec) : Bool := j.flags.getLsbD 4

/-- The job kind that a kind code names (11.2). -/
def JobKind.ofCode (n : Nat) : Option JobKind :=
  match n with
  | 1 => some .attach
  | 2 => some .detach
  | 3 => some .erase
  | 4 => some .program
  | 5 => some .verify
  | 6 => some .readback
  | 7 => some .protect
  | 8 => some .barrier
  | 9 => some .loadCredential
  | 10 => some .clearCredential
  | 11 => some .abort
  | _ => none

/-- The seven kinds that name lanes (R52, R127). -/
def JobKind.hasLanes : JobKind → Bool
  | .attach => true
  | .detach => true
  | .erase => true
  | .program => true
  | .verify => true
  | .readback => true
  | .protect => true
  | .barrier => false
  | .loadCredential => false
  | .clearCredential => false
  | .abort => false

/-- The list count is one that the kind takes (R127, BAD_COUNT). -/
def countAllowed (k : JobKind) (eraseAll : Bool) (n : Nat) : Bool :=
  match k with
  | .program => 1 ≤ n && n ≤ 16
  | .verify => 1 ≤ n && n ≤ 16
  | .erase => if eraseAll then n == 0 else 1 ≤ n && n ≤ 16
  | .loadCredential => n == 1
  | .attach => n == 0
  | .detach => n == 0
  | .readback => n == 0
  | .protect => n == 0
  | .barrier => n == 0
  | .clearCredential => n == 0
  | .abort => n == 0

/-- A number as an index below `n`, or none. -/
def finOf (n : Nat) (v : Nat) : Option (Fin n) := if h : v < n then some ⟨v, h⟩ else none

/-- The selector of an ATTACH: 0-7 an entry, 0x10 AUTO, 0x11 NONE (11.2). -/
def parseSelector (v : Nat) : Option Selector :=
  if v == 0x10 then some .auto
  else if v == 0x11 then some .none
  else (finOf 8 v).map Selector.entry

/-- The parameters of an ATTACH in the record `bs`, or none when one is out of its range (R127, 11.2). -/
def parseAttach (bs : List Byte) : Option AttachParams :=
  match finOf 8 (leField bs 32 1), finOf 8 (leField bs 33 1), parseSelector (leField bs 37 1) with
  | some start, some target, some sel =>
    let settle := leField bs 34 2
    let pulse := leField bs 36 1
    let boot := leField bs 38 2
    let lo := leField bs 40 2
    let hi := leField bs 42 2
    if 1 ≤ settle && settle ≤ 1000 && 1 ≤ pulse && pulse ≤ 255 && 1 ≤ boot && boot ≤ 1000
        && hi ≤ Config.maxSample && lo ≤ hi then
      some { startRate := start, targetRate := target, powerSettle := settle, resetPulse := pulse,
             bootSettle := boot, vmin := lo, vmax := hi, selector := sel }
    else none
  | _, _, _ => none

/-- The kind-specific fields of the record `bs`, or none when one is out of its range (R127, BAD_PARAM). -/
def parseParams (k : JobKind) (bs : List Byte) : Option Params :=
  match k with
  | .attach => (parseAttach bs).map Params.attach
  | .detach => some (.detach (BitVec.ofNat 32 (leField bs 32 4)))
  | .erase => some .erase
  | .program => some .program
  | .verify => some .verify
  | .readback =>
    let len := leField bs 36 4
    let stride := leField bs 48 4
    if 1 ≤ len && len ≤ Config.mib && len ≤ stride then
      some (.readback (BitVec.ofNat 32 (leField bs 32 4)) len (BitVec.ofNat 64 (leField bs 40 8)) stride)
    else none
  | .protect =>
    let level := leField bs 32 1
    if level == 1 || level == 2 then some (.protect (BitVec.ofNat 8 level)) else none
  | .barrier => some .barrier
  | .loadCredential =>
    let len := leField bs 33 1
    match finOf 8 (leField bs 32 1) with
    | some e =>
      if 4 ≤ len && len ≤ 32 then
        some (.loadCredential e len (BitVec.ofNat 16 (leField bs 34 2)) (BitVec.ofNat 16 (leField bs 36 2)))
      else none
    | none => none
  | .clearCredential =>
    let v := leField bs 32 1
    if v == 0xFF then some (.clearCredential none)
    else (finOf 8 v).map (fun e => Params.clearCredential (some e))
  | .abort => (finOf 4 (leField bs 32 1)).map (fun r => Params.abort r (BitVec.ofNat 16 (leField bs 34 2)))

/-- The tag of a job record (11.2); it goes into the completion whatever the record holds (R127). -/
def recordTag (bs : List Byte) : BitVec 16 := BitVec.ofNat 16 (leField bs 2 2)

/-- The IRQ_NOW flag of a job record (11.2). -/
def recordIrqNow (bs : List Byte) : Bool := (BitVec.ofNat 16 (leField bs 6 2)).getLsbD 0

/-- Field validation of a 64-byte job record: the first check that fails, in the order of R127, or the job. -/
def validate (bs : List Byte) : Except Detail JobSpec :=
  match JobKind.ofCode (leField bs 0 1) with
  | none => .error .badKind
  | some k =>
    let lanes := BitVec.ofNat 16 (leField bs 4 2)
    let flags := BitVec.ofNat 16 (leField bs 6 2)
    let listAddr := leField bs 8 8
    let listCount := leField bs 16 1
    let resultAddr := leField bs 24 8
    let retry := leField bs 1 1
    if (lanes == 0) == k.hasLanes then .error .badLanes
    else if !countAllowed k (flags.getLsbD 2) listCount then .error .badCount
    else if 7 < retry then .error .badParam
    else match parseParams k bs with
      | none => .error .badParam
      | some params =>
        if (0 < listCount && listAddr % 8 != 0) || (k.hasLanes && resultAddr % 16 != 0) then .error .badAlign
        else .ok { tag := recordTag bs, lanes := lanes, flags := flags, retryLimit := retry,
                   listAddr := BitVec.ofNat 64 listAddr, listCount := listCount,
                   resultAddr := BitVec.ofNat 64 resultAddr, params := params }

/-! ### Lists -/

/-- The bytes of a list entry (R131). -/
def listEntryBytes : Nat := 24

/-- One 24-byte list entry (R53, 11.2). -/
def parseSegment (bs : List Byte) : Segment where
  hostAddr := BitVec.ofNat 64 (leField bs 0 8)
  target := BitVec.ofNat 32 (leField bs 8 4)
  length := leField bs 12 4
  crc := BitVec.ofNat 32 (leField bs 16 4)
  hasCrc := (bs.getD 20 0).getLsbD 0

/-- The entries of a list of `count` entries. -/
def parseList (count : Nat) (bs : List Byte) : List Segment :=
  (List.range count).map (fun k => parseSegment (slice bs (listEntryBytes * k) listEntryBytes))

/-- The first check that an entry fails, in the order of R131; `floor` is the end of the entry before it. -/
def segmentFault (verify : Bool) (floor : Nat) (e : Segment) : Option Detail :=
  if e.length == 0 || Config.mib < e.length then some .badCount
  else if 2 ^ 32 < e.target.toNat + e.length then some .badParam
  else if verify && !e.hasCrc then some .badParam
  else if e.target.toNat < floor then some .badSegmentOrder
  else none

/-- The list checks, entry by entry in list order: the first failing entry decides (R131). -/
def listFault (verify : Bool) : Nat → List Segment → Option Detail
  | _, [] => none
  | floor, e :: rest =>
    match segmentFault verify floor e with
    | some d => some d
    | none => listFault verify (e.target.toNat + e.length) rest

/-! ### The configuration block -/

/-- The configuration block (11.2). -/
structure ConfigBlock where
  ringBases : Vector (BitVec 64) 4
  ringSizes : Vector Nat 4
  cqBase : BitVec 64
  cqSize : Nat
  settings : Settings
  maskByte : Byte
  deriving DecidableEq, Repr

/-- The block in 64 bytes of host memory (11.2, R167). -/
def parseConfig (bs : List Byte) : ConfigBlock where
  ringBases := Vector.ofFn (fun i => BitVec.ofNat 64 (leField bs (8 * i.val) 8))
  ringSizes := Vector.ofFn (fun i => leField bs (32 + 2 * i.val) 2)
  cqBase := BitVec.ofNat 64 (leField bs 40 8)
  cqSize := leField bs 48 2
  settings :=
    { threshold := leField bs 50 1
      reserve := leField bs 51 1
      delay := leField bs 52 2
      responseTimeout := leField bs 54 2
      waitCap := leField bs 56 2
      supervisePeriod := leField bs 58 2
      mask := { cq := (bs.getD 60 0).getLsbD 0, fault := (bs.getD 60 0).getLsbD 1,
                halt := (bs.getD 60 0).getLsbD 2 } }
  maskByte := bs.getD 60 0

/-- Every value of the block meets its condition (R159, R167). -/
def ConfigBlock.accepted (c : ConfigBlock) : Bool :=
  allRings.all (fun r => c.ringSizes[r] == 0
      || (4 ≤ c.ringSizes[r] && c.ringSizes[r] ≤ 1024 && c.ringBases[r].toNat % 64 == 0))
    && allRings.any (fun r => c.ringSizes[r] != 0)
    && 16 ≤ c.cqSize && c.cqSize ≤ 4096 && c.cqBase.toNat % 16 == 0
    && 1 ≤ c.settings.threshold && c.settings.threshold ≤ 64
    && c.settings.delay ≤ 10000
    && 5 ≤ c.settings.responseTimeout && c.settings.responseTimeout ≤ 1000
    && 100 ≤ c.settings.waitCap && c.settings.waitCap ≤ 60000
    && c.settings.reserve ≤ 3
    && 1 ≤ c.settings.supervisePeriod && c.settings.supervisePeriod ≤ 1000
    && c.maskByte.toNat < 8

/-! ### Records that the PL16 writes -/

/-- A counter in the 4-byte field of a result record (R168; log 13). -/
def counterField (n : Nat) : Nat := if n < 2 ^ 32 then n else (Config.wideCounter n).toNat

/-- Bytes 12 to 31 of a lane result record (11.2, R168). -/
def resultBodyBytes (b : ResultBody) : List Byte :=
  match b with
  | .counters sent retr link bytes =>
    leBytes 4 (counterField sent) ++ leBytes 4 (counterField retr) ++ leBytes 4 (counterField link)
      ++ leBytes 4 (counterField bytes) ++ leBytes 4 0
  | .attach none _ => leBytes 20 0
  | .attach (some d) _ =>
    leBytes 2 d.deviceClass.toNat ++ [d.loaderVersion, d.level] ++ leBytes 4 d.flashBase.toNat
      ++ leBytes 4 d.flashSize.toNat ++ leBytes 4 d.sectorSize.toNat
      ++ [d.granule, d.maxWrite, d.attempts, d.rates]

/-- Byte 8 of a lane result record: address valid, unlocked, credential required (11.2, R168). -/
def resultFlagByte (r : LaneResult) : Byte :=
  BitVec.ofNat 8 (bitAt r.addr.isSome 0 +
    match r.body with
    | .counters _ _ _ _ => 0
    | .attach none _ => 0
    | .attach (some d) unlocked => bitAt unlocked 1 + bitAt d.credentialRequired 2)

/-- A 32-byte lane result record (11.2, R75, R168). -/
def resultRecord (i : LaneId) (r : LaneResult) : List Byte :=
  [BitVec.ofNat 8 i.val, BitVec.ofNat 8 r.outcome.code,
    (r.nak.map NakReason.code).getD 0, (r.kind.map ReqKind.code).getD 0]
    ++ leBytes 4 ((r.addr.map BitVec.toNat).getD 0)
    ++ [resultFlagByte r, 0] ++ leBytes 2 r.sample ++ resultBodyBytes r.body

/-- The fields of a completion record (R137). -/
structure CompletionRecord where
  phase : Bool
  /-- 1 JOB, 2 LANE_EVENT -/
  kind : Nat
  ring : Nat
  status : Nat
  tag : Nat
  detail : Nat
  word8 : Nat
  word10 : Nat
  consumer : Nat
  deriving DecidableEq, Repr

/-- The 16 bytes of a completion record (11.2, R168). -/
def CompletionRecord.bytes (r : CompletionRecord) : List Byte :=
  leBytes 1 (bitAt r.phase 0) ++ leBytes 1 r.kind ++ leBytes 1 r.ring ++ leBytes 1 r.status
    ++ leBytes 2 r.tag ++ leBytes 1 r.detail ++ leBytes 1 0
    ++ leBytes 2 r.word8 ++ leBytes 2 r.word10 ++ leBytes 2 r.consumer ++ leBytes 2 0

end Sys2Proof.Machine
end

