-- ==== Sys2Proof/Machine/Ops.lean ====
section
/-! DEFINITION. The shared operations on State: its parts read and written, interrupts and device FAULT, the
holding queue and its candidates, job slots, the staging pool, power switches and credential pins. -/

namespace Sys2Proof.Machine

/-- The outcome of a command. -/
abbrev Result := Host.Outcome State Fault Refusal

/-! ### Reading and writing the parts -/

/-- Lane `i`. -/
def State.lane (s : State) (i : LaneId) : Lane := s.lanes[i.val]

/-- Lane `i` becomes `l`. -/
def State.setLane (s : State) (i : LaneId) (l : Lane) : State := { s with lanes := s.lanes.set i.val l }

/-- Lane `i` is changed by `f`. -/
def State.modLane (s : State) (i : LaneId) (f : Lane → Lane) : State := s.setLane i (f (s.lane i))

/-- Ring `r`. -/
def State.ring (s : State) (r : RingId) : Ring := s.intake.rings[r.val]

/-- Ring `r` is changed by `f`. -/
def State.modRing (s : State) (r : RingId) (f : Ring → Ring) : State :=
  { s with intake := { s.intake with rings := s.intake.rings.set r.val (f (s.ring r)) } }

/-- What slot `n` holds; none when it is FREE (R54). -/
def State.slot (s : State) (n : SlotId) : Option Job := s.slots[n.val]

/-- Slot `n` comes to hold `j`. -/
def State.setSlot (s : State) (n : SlotId) (j : Option Job) : State := { s with slots := s.slots.set n.val j }

/-- The job in slot `n` is changed by `f`; a FREE slot stays as it is. -/
def State.modSlot (s : State) (n : SlotId) (f : Job → Job) : State :=
  match s.slot n with
  | none => s
  | some j => s.setSlot n (some (f j))

/-- Credential entry `c`. -/
def State.cred (s : State) (c : CredId) : Credential := s.creds[c.val]

/-- Credential entry `c` is changed by `f`. -/
def State.modCred (s : State) (c : CredId) (f : Credential → Credential) : State :=
  { s with creds := s.creds.set c.val (f (s.cred c)) }

/-- The intake engine comes to hold `e`. -/
def State.setEngine (s : State) (e : Engine) : State := { s with intake := { s.intake with engine := e } }

/-- The pool becomes `p`. -/
def State.setPool (s : State) (p : Pool) : State := { s with pool := p }

/-! ### The values in force -/

/-- The response timeout in force (R160); 0 while none is, when no request can be outstanding (R156). -/
def State.responseTimeout (s : State) : Nat :=
  match s.ctl.inForce with
  | none => 0
  | some c => c.responseTimeout

/-- The wait cap in force (R160). -/
def State.waitCap (s : State) : Nat :=
  match s.ctl.inForce with
  | none => 0
  | some c => c.waitCap

/-- The attempt reserve in force (R103). -/
def State.reserve (s : State) : Nat :=
  match s.ctl.inForce with
  | none => 0
  | some c => c.reserve

/-- The interrupt mask in force: no bit is enabled after a reset (R143). -/
def State.mask (s : State) : IrqBits :=
  match s.ctl.inForce with
  | none => IrqBits.clear
  | some c => c.mask

/-! ### Interrupts and device FAULT -/

/-- Bits of IRQ are set, each where `bits` has it (R143). -/
def State.raise (s : State) (bits : IrqBits) : State :=
  { s with ctl := { s.ctl with irq :=
      { cq := s.ctl.irq.cq || bits.cq, fault := s.ctl.irq.fault || bits.fault, halt := s.ctl.irq.halt || bits.halt } } }

/-- An enabled bit went from clear to set. -/
def newlySet (mask before after : IrqBits) : Bool :=
  (mask.cq && !before.cq && after.cq) || (mask.fault && !before.fault && after.fault)
    || (mask.halt && !before.halt && after.halt)

/-- The interrupt message of one happening that began at `before`: one, if any enabled bit went from clear to set
(R143). -/
def withMessage (before after : State) : State :=
  if newlySet after.mask before.ctl.irq after.ctl.irq then
    { after with ctl := { after.ctl with messages := after.ctl.messages + 1 } }
  else after

/-- A failed host transfer is reported to Device Control: in any state but FAULT the device enters FAULT, with the
cause and the FAULT bit of IRQ; a configuration read in flight is then discarded, with what was kept for its end
(R158, R162). -/
def deviceFault (s : State) (c : Cause) : State :=
  if s.ctl.device = .fault then s
  else
    let k : Control :=
      { s.ctl with
        device := .fault, cause := c, configRead := none, keptHalt := false, keptSubmit := Vector.replicate 4 none }
    State.raise { s with ctl := k } { cq := false, fault := true, halt := false }

/-! ### Rings -/

/-- The ring's pending entries (R124). -/
def Ring.pendingEntries (r : Ring) : Nat := (r.producer + r.size - r.consumer) % r.size

/-- The consumer index one further, mod size (R133). -/
def Ring.advance (r : Ring) : Ring := { r with consumer := (r.consumer + 1) % r.size }

/-- A ring held on SLOT is held no longer: a slot has become FREE (R130). -/
def Ring.slotFreed (r : Ring) : Ring := if r.blocked = .slot then { r with blocked := .none } else r

/-- A ring held on LANE_QUEUE for a set with lane `i` is held no longer: a job has left, or a reservation has been
released from, that lane's queue (R130). -/
def Ring.laneFreed (r : Ring) (i : LaneId) : Ring :=
  match r.held with
  | none => r
  | some h => if r.blocked = .laneQueue && inSet h.lanes i then { r with blocked := .none } else r

/-- Every ring is told that a slot has become FREE. -/
def State.unblockSlot (s : State) : State :=
  { s with intake := { s.intake with rings := s.intake.rings.map Ring.slotFreed } }

/-- Every ring is told that lane `i`'s queue has gained room. -/
def State.unblockLane (s : State) (i : LaneId) : State :=
  { s with intake := { s.intake with rings := s.intake.rings.map (fun r => r.laneFreed i) } }

/-- The rings are told of room on each lane of a set. -/
def State.unblockLanes (s : State) (m : BitVec 16) : State := (lanesOf m).foldl State.unblockLane s

/-! ### The holding queue, its wait list, and the freeing of slots -/

/-- A candidate that arrives now enters the holding queue at once: there is room, none waits, and the device is not
in FAULT (R138). -/
def State.canEnter (s : State) : Bool :=
  s.ctl.device != .fault && s.writer.waitList.isEmpty && s.writer.holding.length < Config.holdingRoom

/-- A record enters the holding queue at its back. -/
def State.pushHolding (s : State) (r : HeldRecord) : State :=
  { s with writer := { s.writer with holding := s.writer.holding ++ [r] } }

/-- A candidate joins the wait list, with none twice (R138). -/
def State.joinWait (s : State) (c : Candidate) : State :=
  if s.writer.waitList.contains c then s
  else { s with writer := { s.writer with waitList := s.writer.waitList ++ [c] } }

/-- A RETIRING job is offered to the Completion Writer (R138, R139). -/
def offerJob (s : State) (n : SlotId) : State :=
  if s.canEnter then s.pushHolding (.job n) else s.joinWait (.job n)

/-- The job of slot `n` has already been offered. -/
def State.offered (s : State) (n : SlotId) : Bool :=
  s.writer.waitList.contains (.job n) || s.writer.holding.contains (.job n)

/-- A staging block is keyed to slot `n` (R92). -/
def Pool.keyed (p : Pool) (n : SlotId) : Bool :=
  allBlocks.any (fun b =>
    match p.blocks[b.val] with
    | some k => k.slot == n
    | none => false)

/-- A RETIRING job is offered as soon as no staging block is keyed to its slot (R92, R139). -/
def offerIfClear (s : State) (n : SlotId) : State :=
  match s.slot n with
  | none => s
  | some j => if j.state = .retiring && !s.offered n && !s.pool.keyed n then offerJob s n else s

/-- Lane `i`'s outcome for the job, if it has one. -/
def Job.outcome (j : Job) (i : LaneId) : Option LaneOutcome := (j.results[i.val]).map LaneResult.outcome

/-- Every lane of the job's set has its outcome (R56). -/
def Job.allDone (j : Job) : Bool := allLanes.all (fun i => !inSet j.spec.lanes i || (j.results[i.val]).isSome)

/-- The lanes of the job's set whose outcome is OK (R73). -/
def Job.okMask (j : Job) : BitVec 16 := laneSetOf (fun i => inSet j.spec.lanes i && j.outcome i == some .ok)

/-- The status and masks of a job from the outcomes of its lanes, in the order of R73. -/
def Job.fixStatus (j : Job) : FinalStatus :=
  let ok := j.okMask
  let fail := j.spec.lanes &&& ~~~ ok
  if allLanes.any (fun i => inSet j.spec.lanes i && j.outcome i == some .aborted) then
    { status := .aborted, okMask := ok, failMask := fail }
  else if fail = 0 then { status := .success, okMask := ok, failMask := fail }
  else if ok = 0 then { status := .failed, okMask := ok, failMask := fail }
  else { status := .partly, okMask := ok, failMask := fail }

/-- The job of slot `n` enters RETIRING once every lane of its set has an outcome, and is offered when its blocks
allow (R55, R56, R73, R92). -/
def retireIfDone (s : State) (n : SlotId) : State :=
  match s.slot n with
  | none => s
  | some j =>
    if (j.state = .queued || j.state = .active) && j.allDone then
      offerIfClear (s.setSlot n (some { j with state := .retiring, final := some j.fixStatus })) n
    else s

/-- A BARRIER enters RETIRING with empty masks, its ring's barrier pending is cleared, and it is offered (R74,
R149). -/
def retireBarrier (s : State) (n : SlotId) (status : Status) : State :=
  match s.slot n with
  | none => s
  | some j =>
    let final : FinalStatus := { status := status, okMask := 0, failMask := 0 }
    let s1 := s.setSlot n (some { j with state := .retiring, waitSet := [], final := some final })
    offerJob (s1.modRing j.ring (fun r => { r with barrierPending := false })) n

/-- Slot `n` leaves the wait set of the barrier in slot `m`, which retires when its wait set empties (R74). -/
def leaveWaitSet (n : SlotId) (s : State) (m : SlotId) : State :=
  match s.slot m with
  | none => s
  | some j =>
    if j.state = .waiting && j.waitSet.contains n then
      let rest := j.waitSet.filter (· != n)
      if rest.isEmpty then retireBarrier s m .success
      else s.setSlot m (some { j with waitSet := rest })
    else s

/-- Slot `n` becomes FREE: its job leaves every wait set, and rings held on SLOT are held no longer (R54, R74,
R130). -/
def freeSlot (s : State) (n : SlotId) : State :=
  (allSlots.foldl (leaveWaitSet n) (s.setSlot n none)).unblockSlot

/-- The completion that an INTAKE job waits to post (R131, R138). -/
def Job.intakeCompletion (j : Job) (e : Status × Detail) : IntakeCompletion :=
  { ring := j.ring, tag := j.spec.tag, status := e.1, detail := e.2, irqNow := j.spec.irqNow }

/-- A candidate takes a place in the holding queue. For an entry completed at intake the consumer index advances
and in intake is cleared in the same happening (R133); a job completed from INTAKE then gives up its reservations
and its slot (R131); a lane's pending event becomes absent (R49). -/
def enterHolding (s : State) (c : Candidate) : State :=
  match c with
  | .job n => s.pushHolding (.job n)
  | .engine =>
    match s.intake.engine with
    | .waiting comp =>
      let s1 := (s.pushHolding (.intake comp)).setEngine .free
      s1.modRing comp.ring (fun r => { r.advance with inIntake := false })
    | .free => s
    | .recordRead _ _ => s
    | .credentialRead _ _ => s
  | .intakeJob n =>
    match s.slot n with
    | none => s
    | some j =>
      match j.intakeEnd with
      | none => s
      | some e =>
        let s1 := s.pushHolding (.intake (j.intakeCompletion e))
        let s2 := s1.modRing j.ring (fun r => { r with inIntake := false })
        (freeSlot s2 n).unblockLanes j.spec.lanes
  | .laneEvent i =>
    match (s.lane i).pendingEvent with
    | none => s
    | some e => (s.pushHolding (.event i e)).modLane i (fun l => { l with pendingEvent := none })

/-- A candidate is offered: it enters the holding queue at once or joins the wait list (R138). -/
def offer (s : State) (c : Candidate) : State :=
  if s.canEnter then enterHolding s c else s.joinWait c

/-- The candidate at the front of the wait list takes a free place (R138); none does in FAULT. -/
def promote (s : State) : State :=
  match s.writer.waitList with
  | [] => s
  | c :: rest =>
    if s.ctl.device != .fault && s.writer.holding.length < Config.holdingRoom then
      enterHolding { s with writer := { s.writer with waitList := rest } } c
    else s

/-- A completion at intake is posted: the engine keeps the entry in hand until it enters the holding queue
(R133). -/
def postIntake (s : State) (c : IntakeCompletion) : State := offer (s.setEngine (.waiting c)) .engine

/-- QUIESCING ends in HALTED, with the HALT bit of IRQ, once every slot is FREE, the holding queue is empty and the
intake engine holds no entry (R161). -/
def drainIfComplete (s : State) : State :=
  if s.ctl.device = .quiescing && slotsInUse s == 0 && s.writer.holding.isEmpty && s.intake.engine == .free then
    let s1 : State := { s with ctl := { s.ctl with device := .halted } }
    s1.raise { cq := false, fault := false, halt := true }
  else s

/-! ### The Staging Pool -/

/-- The number of blocks that a segment is cut into (R77). -/
def Segment.blocks (g : Segment) : Nat := (g.length + 127) / Config.blockBytes

/-- The valid bytes of block `b` of a segment (R77). -/
def Segment.validBytes (g : Segment) (b : Nat) : Nat := min Config.blockBytes (g.length - Config.blockBytes * b)

/-- The block that carries a key, if one does (R77). -/
def Pool.find (p : Pool) (slot : SlotId) (segment index : Nat) : Option BlockId :=
  allBlocks.find? (fun b =>
    match p.blocks[b.val] with
    | some k => k.slot == slot && k.segment == segment && k.index == index
    | none => false)

/-- The record of a block in use. -/
def Pool.block (p : Pool) (b : BlockId) : Option Block := p.blocks[b.val]

/-- Block `b` comes to hold `k`. -/
def Pool.setBlock (p : Pool) (b : BlockId) (k : Option Block) : Pool := { p with blocks := p.blocks.set b.val k }

/-- A block is freed: its record is cleared, its queued read if any leaves the fetch queue, and its number goes to
the back of the free list (R78, R86). -/
def Pool.free (p : Pool) (b : BlockId) : Pool :=
  { p with blocks := p.blocks.set b.val none, fetchQueue := p.fetchQueue.filter (· != b), freeList := p.freeList ++ [b] }

/-- Lane `i` leaves the reference set of block `b`; a block whose set empties is freed, unless its read is in flight
and leaves it an orphan (R86). -/
def Pool.leave (i : LaneId) (p : Pool) (b : BlockId) : Pool :=
  match p.block b with
  | none => p
  | some k =>
    if inSet k.refs i then
      let refs := dropLane k.refs i
      if refs = 0 && k.state != .inFlight then p.free b
      else p.setBlock b (some { k with refs := refs })
    else p

/-- Lane `i` leaves every reference set it is in (R86); freed blocks join the free list in ascending block number
(log 17). -/
def Pool.leaveAll (p : Pool) (i : LaneId) : Pool := allBlocks.foldl (Pool.leave i) p

/-- The key after (g, b) in the job's image: the next block of the segment, or block 0 of the next segment (R79). -/
def nextKey (list : List Segment) (key : Nat × Nat) : Nat × Nat :=
  match list[key.1]? with
  | none => key
  | some g => if key.2 + 1 < g.blocks then (key.1, key.2 + 1) else (key.1 + 1, 0)

/-- Up to `count` keys of the job's image from a cursor onward (R79). -/
def keysFrom (list : List Segment) : Nat → Nat × Nat → List (Nat × Nat)
  | 0, _ => []
  | count + 1, key =>
    if key.1 < list.length then key :: keysFrom list count (nextKey list key) else []

/-- One key of a window is looked up: the lane joins the block that carries it, or the block at the front of the
free list is created FETCHING for the lane alone (R80). -/
def Pool.want (slot : SlotId) (list : List Segment) (i : LaneId) (p : Pool) (key : Nat × Nat) : Pool :=
  match p.find slot key.1 key.2 with
  | some b =>
    match p.block b with
    | some k => p.setBlock b (some { k with refs := addLane k.refs i })
    | none => p
  | none =>
    match p.freeList, list[key.1]? with
    | b :: rest, some g =>
      let k : Block :=
        { slot := slot, segment := key.1, index := key.2, valid := g.validBytes key.2, state := .waiting, refs := laneBit i }
      { blocks := p.blocks.set b.val (some k), freeList := rest, fetchQueue := p.fetchQueue ++ [b], stale := p.stale }
    | _, _ => p

/-- A lane fills its window from its cursor (R79, R80). -/
def Pool.fill (p : Pool) (slot : SlotId) (list : List Segment) (i : LaneId) (cursor : Nat × Nat) : Pool :=
  (keysFrom list Config.windowKeys cursor).foldl (Pool.want slot list i) p

/-- Reads of blocks in flight (R82). -/
def Pool.inFlight (p : Pool) : Nat :=
  allBlocks.countP (fun b =>
    match p.blocks[b.val] with
    | some k => k.state == .inFlight
    | none => false)

/-- The host address and length of the read of a block (R82). An address past 2^64 wraps (DESIGN CHOICE, log 34). -/
def blockRead (list : List Segment) (k : Block) : Option (BitVec 64 × Nat) :=
  (list[k.segment]?).map (fun g => (g.hostAddr + BitVec.ofNat 64 (Config.blockBytes * k.index), k.valid))

/-! ### Outputs, power switches and credential pins -/

/-- The change that driving an output makes: none where it stands at that level (R26). -/
def outputChange (pin : OutputPin) (was on : Bool) : List OutputChange := if was = on then [] else [{ pin := pin, on := on }]

/-- MODE is driven to a level, and the change joins the lane's record of its outputs. A happening that changes several
outputs drives MODE, then RESET, then POWER (R26; log 40). -/
def Lane.driveMode (l : Lane) (on : Bool) : Lane :=
  { l with modePin := on, outputs := l.outputs ++ outputChange .mode l.modePin on }

/-- RESET is driven to a level, after MODE and before POWER (R26). -/
def Lane.driveReset (l : Lane) (on : Bool) : Lane :=
  { l with resetPin := on, outputs := l.outputs ++ outputChange .reset l.resetPin on }

/-- The POWER switch is driven on or off, after MODE and RESET (R26). -/
def Lane.drivePower (l : Lane) (on : Bool) : Lane :=
  { l with power := on, outputs := l.outputs ++ outputChange .power l.power on }

/-- A conversion in progress for lane `i` becomes void (R110, R114). -/
def voidConversion (s : State) (i : LaneId) : State :=
  match s.supply.converter with
  | none => s
  | some c =>
    if c.lane = i then { s with supply := { s.supply with converter := some { c with void := true } } } else s

/-- A lane with its switch off and its pending converter requests dropped (R110, R115). The CHECK count keeps its last
number after POWERING has ended this way, until the next entry to POWERING (DESIGN CHOICE, log 35). -/
def Lane.powerOff (l : Lane) : Lane :=
  { l.drivePower false with checkPending := false, supervisePending := false, checkWait := none }

/-- The lane's switch goes off; a switch that is off stays as it is (R110). -/
def switchOff (s : State) (i : LaneId) : State :=
  if (s.lane i).power then (voidConversion s i).modLane i Lane.powerOff else s

/-- The lane's pin on a credential entry, if it holds one, is released (R101). -/
def releasePin (s : State) (i : LaneId) : State :=
  match (s.lane i).pinned with
  | none => s
  | some c =>
    (s.modCred c (fun e => { e with pins := e.pins - 1 })).modLane i (fun l => { l with pinned := none })

end Sys2Proof.Machine
end

