-- ==== Sys2Proof/Machine/Lanes.lean ====
section
/-! DEFINITION. The Lane Engine's shared operations: phases, requests, the ends of a lane's part of a job, lane
faults and lane events (R21 to R25, R32 to R51, R56, R58, R75). -/

namespace Sys2Proof.Machine

/-- How a lane's part of a job ends: its outcome, and what the result record says of the cause (R72, R75). -/
structure Verdict where
  outcome : LaneOutcome
  nak : Option NakReason
  kind : Option ReqKind
  addr : Option (BitVec 32)
  deriving DecidableEq, Repr

/-- An outcome whose result record names no reason, kind or address. -/
def Verdict.plain (o : LaneOutcome) : Verdict := { outcome := o, nak := none, kind := none, addr := none }

/-- An operation on a lane, and the verdict on its current job if it ends the lane's part of it. -/
abbrev Stepped := State × Option Verdict

/-! ### Lane contexts -/

/-- The lane's receiver takes frames: in READY and BUSY, but for the 2 ms gap after a SET_RATE ACK (R3, R19, R27). -/
def Lane.receiving (l : Lane) : Bool := (l.state == .ready || l.state == .busy) && l.rateGap.isNone

/-- What goes out on TXD belongs to no outstanding request any longer: the frame is finished all the same (R25). -/
def Tx.orphaned (t : Tx) : Tx :=
  match t with
  | .idle => .idle
  | .pattern chars => .pattern chars
  | .frame bytes _ => .frame bytes false

/-- The outstanding request ends with success or refusal and the lane returns to READY (R25). -/
def Lane.endRequest (l : Lane) : Lane := { l with outstanding := none, state := .ready, tx := l.tx.orphaned }

/-- Every lane timer but the rate gap's is stopped (R44, R152). -/
def Lane.stopPhases (l : Lane) : Lane :=
  { l with powerSettle := none, checkWait := none, resetPulse := none, bootSettle := none, training := none }

/-- The session ends: identity record and unlocked flag are cleared, the outstanding request and the rate gap are
dropped, and a frame partly received is discarded (R29, R34, R44; log 12). -/
def Lane.endSession (l : Lane) : Lane :=
  { l with identity := none, unlocked := false, outstanding := none, rateGap := none, rx := none, tx := l.tx.orphaned }

/-- The job-bound fields take their start values (R30). A readback host write that an ended job has left in flight is
none of them: it runs on (R69). -/
def Lane.startJob (l : Lane) : Lane :=
  { l with step := .none, segment := 0, block := 0, offset := 0, erasedThrough := 0, crc := crc32Init,
           sent := 0, retransmits := 0, linkErrors := 0, bytes := 0 }

/-- The lane enters POWERING: MODE deasserted, RESET asserted, power on, the power settle timer started (R35). -/
def Lane.enterPowering (l : Lane) (settle : Nat) : Lane :=
  { ((l.driveMode false).driveReset true).drivePower true with
    state := .powering, powerSettle := some settle, checkCount := 0, step := .attachPhase }

/-- The lane enters RESETTING: MODE and RESET asserted, the reset pulse timer started (R36). -/
def Lane.enterResetting (l : Lane) (pulse : Nat) : Lane :=
  { (l.driveMode true).driveReset true with
    state := .resetting, resetPulse := some pulse, checkWait := none, step := .attachPhase }

/-- A training attempt begins: the rate code is the start rate, the three characters of the pattern go out on TXD,
the count rises (R4, R5). A frame of an ended request that is still going out is finished first (R1, R25; log 10). -/
def Lane.enterTraining (l : Lane) (start : RateCode) : Lane :=
  { l with state := .training, rate := start, attempts := l.attempts + 1,
           tx := match l.tx with
             | .idle => .pattern Config.trainingPattern
             | .pattern chars => .pattern chars
             | .frame bytes live => .frame bytes live }

/-- A lane fault's effect on the lane: the session ends, every timer stops, RESET is asserted, MODE is kept, TXD
falls idle, and the lane is FAULTED with the code (R44, R48; log 11). -/
def Lane.enterFaulted (l : Lane) (code : FaultCode) : Lane :=
  { l.endSession.stopPhases.driveReset true with tx := .idle, faultCode := some code, state := .faulted }

/-- The lane is left in OFF, MODE deasserted first and RESET asserted after it; its switch goes off after both (R26, R43,
R152). -/
def Lane.enterOff (l : Lane) : Lane :=
  { (l.endSession.stopPhases.driveMode false).driveReset true with faultCode := none, state := .off }

/-- The ACK to START: MODE deasserted, the session ended, the lane RELEASED (R42). -/
def Lane.enterReleased (l : Lane) : Lane := { l.endSession.driveMode false with state := .released }

/-! ### The current job -/

/-- The lane's current job: the head of its queue, with what its slot holds (R57). -/
def currentJob (s : State) (i : LaneId) : Option (SlotId × Job) :=
  match (s.lane i).queue with
  | [] => none
  | n :: _ =>
    match s.slot n with
    | none => none
    | some j => some (n, j)

/-- The retry limit of the lane's current job (R52). -/
def retryLimit (s : State) (i : LaneId) : Nat :=
  match currentJob s i with
  | none => 0
  | some (_, j) => j.spec.retryLimit

/-! ### Requests -/

/-- The lane may start a new request now: the device is not in FAULT (R33), nothing is outstanding (R21), nothing
is going out on TXD (R1), no readback host write is in flight, be it an ended job's (R69), and the lane is READY or
opens its session from TRAINING (R21, R37). -/
def canSend (s : State) (i : LaneId) : Bool :=
  s.ctl.device != .fault && (s.lane i).outstanding.isNone && (s.lane i).tx == .idle && (s.lane i).readback.isNone
    && ((s.lane i).state == .ready || (s.lane i).state == .training)

/-- A new request takes the next seq and starts to go out; the lane enters BUSY (R11, R21). -/
def Lane.startRequest (l : Lane) (kind : ReqKind) (payload : List Byte) : Lane :=
  { l with
    outstanding := some { kind := kind, seq := l.nextSeq, retries := 0, waits := 0, timer := none, payload := payload },
    nextSeq := l.nextSeq + 1,
    state := .busy,
    tx := .frame (buildFrame l.nextSeq kind.code payload) true,
    sent := l.sent + 1 }

/-- The step in hand calls for a request: it is sent if the lane may send one now, and else the lane waits in its
step: until the frame on TXD is out (R33, R21; log 10), or the readback host write in flight has ended (R69; log 39). -/
def send (s : State) (i : LaneId) (kind : ReqKind) (payload : List Byte) : State :=
  if canSend s i then s.modLane i (fun l => l.startRequest kind payload) else s

/-- The outstanding request's frame is sent again with a retry used (R22, R24). -/
def Lane.retransmit (l : Lane) (req : Request) : Lane :=
  { l with
    outstanding := some { req with retries := req.retries + 1, timer := none },
    retransmits := l.retransmits + 1,
    tx := .frame (buildFrame req.seq req.kind.code req.payload) true }

/-- A spoiled frame or a NAK FRAME while the response timer runs: the request is retransmitted at once unless its
retries are used up (R24). -/
def retransmitAtOnce (s : State) (i : LaneId) : State :=
  match (s.lane i).outstanding with
  | none => s
  | some req =>
    if req.timer.isSome && req.retries < retryLimit s i then s.modLane i (fun l => l.retransmit req) else s

/-! ### Result contents and the end of a lane's part of a job -/

/-- The part of the result content that depends on the job's kind; `takenUp` says whether the lane took the job up
(R41, R75). -/
def Lane.resultBody (l : Lane) (p : Params) (takenUp : Bool) : ResultBody :=
  match p.kind with
  | .attach => if takenUp then .attach l.identity l.unlocked else .attach none false
  | .detach => if takenUp then .counters l.sent l.retransmits l.linkErrors l.bytes else .counters 0 0 0 0
  | .erase => if takenUp then .counters l.sent l.retransmits l.linkErrors l.bytes else .counters 0 0 0 0
  | .program => if takenUp then .counters l.sent l.retransmits l.linkErrors l.bytes else .counters 0 0 0 0
  | .verify => if takenUp then .counters l.sent l.retransmits l.linkErrors l.bytes else .counters 0 0 0 0
  | .readback => if takenUp then .counters l.sent l.retransmits l.linkErrors l.bytes else .counters 0 0 0 0
  | .protect => if takenUp then .counters l.sent l.retransmits l.linkErrors l.bytes else .counters 0 0 0 0
  | .barrier => .counters 0 0 0 0
  | .loadCredential => .counters 0 0 0 0
  | .clearCredential => .counters 0 0 0 0
  | .abort => .counters 0 0 0 0

/-- The content of a lane's result record as it stands now (R75). -/
def Lane.result (l : Lane) (p : Params) (takenUp : Bool) (v : Verdict) : LaneResult where
  outcome := v.outcome
  nak := v.nak
  kind := v.kind
  addr := v.addr
  sample := l.lastSample
  body := l.resultBody p takenUp

/-- An outcome is recorded once and then not changed (R56). -/
def Job.record (j : Job) (i : LaneId) (r : LaneResult) : Job :=
  if (j.results[i.val]).isSome then j else { j with results := j.results.set i.val (some r) }

/-- The lane's part of the job in slot `n` ends: its outcome is recorded, it leaves every reference set, the job
leaves its queue, and the job retires if this was the last outcome (R56, R58, R86). A readback host write still in
flight is not stopped: it stays with the lane until its end (R69). -/
def closeJob (s : State) (i : LaneId) (n : SlotId) (r : LaneResult) : State :=
  let s1 := s.modSlot n (fun j => j.record i r)
  let s2 := s1.setPool (s1.pool.leaveAll i)
  let s3 := s2.modLane i (fun l => { l with queue := l.queue.filter (· != n), step := .none })
  retireIfDone (s3.unblockLane i) n

/-- A lane that never took up the job of slot `n` receives its outcome, and the job is removed from its queue; its
current job, if another, is not touched (R148, R150). -/
def removeJob (s : State) (i : LaneId) (n : SlotId) (j : Job) (v : Verdict) : State :=
  let s1 := s.modSlot n (fun k => k.record i ((s.lane i).result j.spec.params false v))
  let s2 := s1.modLane i (fun l => { l with queue := l.queue.filter (· != n) })
  retireIfDone (s2.unblockLane i) n

/-! ### Staging windows -/

/-- The lane fills its window at its cursor for the job of slot `n` (R79, R80). -/
def fillWindow (s : State) (i : LaneId) (n : SlotId) (j : Job) : State :=
  s.setPool (s.pool.fill n j.list i ((s.lane i).segment, (s.lane i).block))

/-- The verdict on a lane of an image-failed job, with the failed block's first byte in the target (R88). -/
def hostReadVerdict (j : Job) : Verdict :=
  match j.imageFailed with
  | none => Verdict.plain .hostRead
  | some (g, b) =>
    { Verdict.plain .hostRead with
      addr := (j.list[g]?).map (fun e => e.target + BitVec.ofNat 32 (Config.blockBytes * b)) }

/-! ### Pre-checks -/

/-- The record's protection level refuses a request that the job would send (R60). -/
def levelRefuses (level : Nat) (j : JobSpec) : Bool :=
  match j.params.kind with
  | .erase => if j.eraseAll then 2 ≤ level else 1 ≤ level
  | .program => 1 ≤ level
  | .verify => 1 ≤ level
  | .readback => 1 ≤ level
  | .protect => 2 ≤ level
  | .attach => false
  | .detach => false
  | .barrier => false
  | .loadCredential => false
  | .clearCredential => false
  | .abort => false

/-- Some byte from `addr` on, `len` of them, lies outside flash (R60). -/
def Identity.outside (d : Identity) (addr len : Nat) : Bool :=
  addr < d.flashBase.toNat || d.flashBase.toNat + d.flashSize.toNat < addr + len

/-- The entry is not aligned as the job's kind requires (R60). -/
def Identity.misaligned (d : Identity) (k : JobKind) (e : Segment) : Bool :=
  match k with
  | .erase => (e.target.toNat - d.flashBase.toNat) % d.sectorSize.toNat != 0 || e.length % d.sectorSize.toNat != 0
  | .program => e.target.toNat % d.granule.toNat != 0 || e.length % d.granule.toNat != 0
  | .verify => false
  | .readback => false
  | .protect => false
  | .attach => false
  | .detach => false
  | .barrier => false
  | .loadCredential => false
  | .clearCredential => false
  | .abort => false

/-- The ranges of flash that the job would touch, as list entries in list order (R60). -/
def Job.ranges (j : Job) : List Segment :=
  match j.spec.params with
  | .erase => if j.spec.eraseAll then [] else j.list
  | .program => j.list
  | .verify => j.list
  | .readback target len _ _ => [{ hostAddr := 0, target := target, length := len, crc := 0, hasCrc := false }]
  | .protect _ => []
  | .attach _ => []
  | .detach _ => []
  | .barrier => []
  | .loadCredential _ _ _ _ => []
  | .clearCredential _ => []
  | .abort _ _ => []

/-- The four pre-checks in the order of R59: the verdict of the first that fails. -/
def preCheck (d : Identity) (unlocked : Bool) (j : Job) : Option Verdict :=
  if !unlocked then some (Verdict.plain .notUnlocked)
  else if levelRefuses d.level.toNat j.spec then some (Verdict.plain .guarded)
  else match j.ranges.find? (fun e => d.outside e.target.toNat e.length) with
    | some e => some { Verdict.plain .range with addr := some e.target }
    | none =>
      match j.ranges.find? (d.misaligned j.spec.params.kind) with
      | some e => some { Verdict.plain .align with addr := some e.target }
      | none => none

/-! ### The credential step -/

/-- The entry that a selector resolves to for a device class, if one does (R100). -/
def resolve (s : State) (sel : Selector) (cls : BitVec 16) : Option CredId :=
  match sel with
  | .entry n => if (s.cred n).valid then some n else none
  | .auto =>
    allCreds.find? (fun n =>
      (s.cred n).valid && ((s.cred n).mask &&& cls) == ((s.cred n).mask &&& (s.cred n).cls))
  | .none => none

/-- The credential step: the selector is resolved, the attempt reserve checked, the entry pinned and UNLOCK sent, all
in one happening (R101, R103); it is not entered in device state FAULT (R106). While TXD is still finishing an orphaned
frame, or an ended job's readback write is in flight, the two checks are made all the same and may end the ATTACH; where
both pass the step waits, and the whole of it is done again at the end of that frame or write, with the pin and UNLOCK
(DESIGN CHOICE, log 33). -/
def credentialStep (s : State) (i : LaneId) (sel : Selector) : Stepped :=
  if s.ctl.device = .fault then (s, none)
  else match (s.lane i).identity with
    | none => (s, none)
    | some d =>
      match resolve s sel d.deviceClass with
      | none => (s, some (Verdict.plain .noCredential))
      | some c =>
        if d.attempts.toNat ≤ s.reserve then (s, some (Verdict.plain .authReserve))
        else if canSend s i then
          let s1 := s.modCred c (fun e => { e with pins := e.pins + 1 })
          let s2 := s1.modLane i (fun l => { l with pinned := some c })
          (send s2 i .unlock ((s.cred c).bytes.take (s.cred c).length), none)
        else (s, none)

/-- The unlock decision, with the identity settled at its final rate (R40); with TXD still busy its credential step
checks now and again at FRAME_SENT (DESIGN CHOICE, log 33). -/
def unlockDecision (s : State) (i : LaneId) (p : AttachParams) : Stepped :=
  match (s.lane i).identity with
  | none => (s, none)
  | some d =>
    if !d.credentialRequired then (s, some (Verdict.plain .ok))
    else match p.selector with
      | .none => (s, some (Verdict.plain .ok))
      | .entry n => credentialStep (s.modLane i (fun l => { l with step := .attachCredential })) i (.entry n)
      | .auto => credentialStep (s.modLane i (fun l => { l with step := .attachCredential })) i .auto

/-- The rate decision after the first HELLO (R38). -/
def rateDecision (s : State) (i : LaneId) (p : AttachParams) : Stepped :=
  match (s.lane i).identity with
  | none => (s, none)
  | some d =>
    if p.targetRate = (s.lane i).rate then unlockDecision s i p
    else if !d.rates.getLsbD p.targetRate.val then (s, some (Verdict.plain .rateUnsupported))
    else
      let s1 := s.modLane i (fun l => { l with step := .attachSetRate })
      (send s1 i .setRate [BitVec.ofNat 8 p.targetRate.val], none)

/-! ### The steps of the other jobs -/

/-- The identity record that a step works with; a lane in a session holds one (R27). -/
def Lane.identityOr (l : Lane) : Identity :=
  match l.identity with
  | some d => d
  | none =>
    { deviceClass := 0, loaderVersion := 0, level := 0, flashBase := 0, flashSize := 0, sectorSize := 0,
      granule := 0, maxWrite := 0, credentialRequired := false, attempts := 0, rates := 0 }

/-- The payload of an ERASE (R11). -/
def erasePayload (addr count : Nat) : List Byte := beBytes 4 addr ++ [BitVec.ofNat 8 count]

/-- The sectors of a region (R61). -/
def regionSectors (d : Identity) (g : Segment) : Nat := g.length / d.sectorSize.toNat

/-- The first of a segment's covering sectors that lies at or above the erased-through address, counted from flash
base, and the number of sectors from it to the segment's last byte (R63). -/
def coveringSectors (d : Identity) (erasedThrough : Nat) (g : Segment) : Nat × Nat :=
  let base := d.flashBase.toNat
  let size := d.sectorSize.toNat
  let first := (g.target.toNat - base) / size
  let last := (g.target.toNat + g.length - 1 - base) / size
  let low := max first ((erasedThrough - base + (size - 1)) / size)
  (low, last + 1 - low)

/-- The largest multiple of the write granule that is not above 128 and max write payload (R64). -/
def chunkSize (d : Identity) : Nat := min Config.blockBytes d.maxWrite.toNat / d.granule.toNat * d.granule.toNat

/-- The chunk at a cursor of a READY block's data (R64). -/
def chunkAt (d : Identity) (data : List Byte) (offset : Nat) : List Byte := (data.drop offset).take (chunkSize d)

/-- The write step: the chunk at the cursor is sent if its block is READY, and else the lane waits (R64, R84). -/
def sendChunk (s : State) (i : LaneId) (n : SlotId) (g : Segment) : State :=
  match s.pool.find n (s.lane i).segment (s.lane i).block with
  | none => s
  | some b =>
    match s.pool.block b with
    | none => s
    | some k =>
      match k.state with
      | .waiting => s
      | .inFlight => s
      | .ready data =>
        let addr := g.target.toNat + Config.blockBytes * (s.lane i).block + (s.lane i).offset
        send s i .write (beBytes 4 addr ++ chunkAt (s.lane i).identityOr data (s.lane i).offset)

/-- The erase step of a segment: the next ERASE of its covering sectors, or the write step when none is left (R63). -/
def programErase (s : State) (i : LaneId) (n : SlotId) (index : Nat) (g : Segment) : State :=
  let d := (s.lane i).identityOr
  let (low, count) := coveringSectors d (s.lane i).erasedThrough g
  if count = 0 then
    sendChunk (s.modLane i (fun l => { l with step := .programWrite index })) i n g
  else send s i .erase (erasePayload (d.flashBase.toNat + low * d.sectorSize.toNat) (min Config.maxSectors count))

/-- The payload of a SUM over a segment (R11, R66, R67). -/
def sumPayload (g : Segment) : List Byte := beBytes 4 g.target.toNat ++ beBytes 4 g.length

/-- What the step in hand calls for now: at most one request is sent, and an ATTACH's credential step may end the
lane's part of the job (R33, R61 to R70, R103). -/
def proceed (s : State) (i : LaneId) : Stepped :=
  match currentJob s i with
  | none => (s, none)
  | some (n, j) =>
    let d := (s.lane i).identityOr
    match (s.lane i).step with
    | .none => (s, none)
    | .attachPhase => (s, none)
    | .attachRateGap => (s, none)
    | .readbackWrite _ => (s, none)
    | .attachIdentify => (send s i .identify [], none)
    | .attachIdentifyAgain => (send s i .identify [], none)
    | .attachSetRate =>
      match j.spec.params with
      | .attach p => (send s i .setRate [BitVec.ofNat 8 p.targetRate.val], none)
      | _ => (s, none)
    | .attachCredential =>
      match j.spec.params with
      | .attach p => credentialStep s i p.selector
      | _ => (s, none)
    | .detachStart =>
      match j.spec.params with
      | .detach e => (send s i .start (beBytes 4 e.toNat), none)
      | _ => (s, none)
    | .eraseAll => (send s i .erase (erasePayload d.flashBase.toNat 0), none)
    | .eraseRegion k done =>
      match j.list[k]? with
      | none => (s, none)
      | some g =>
        (send s i .erase (erasePayload (g.target.toNat + done * d.sectorSize.toNat)
          (min Config.maxSectors (regionSectors d g - done))), none)
    | .programErase k =>
      match j.list[k]? with
      | none => (s, none)
      | some g => (programErase s i n k g, none)
    | .programWrite k =>
      match j.list[k]? with
      | none => (s, none)
      | some g => (sendChunk s i n g, none)
    | .programVerify k =>
      match j.list[k]? with
      | none => (s, none)
      | some g => (send s i .sum (sumPayload g), none)
    | .verifySum k =>
      match j.list[k]? with
      | none => (s, none)
      | some g => (send s i .sum (sumPayload g), none)
    | .readbackRead off =>
      match j.spec.params with
      | .readback target len _ _ =>
        (send s i .read (beBytes 4 (target.toNat + off) ++ beBytes 2 (min Config.blockBytes (len - off))), none)
      | _ => (s, none)
    | .protect =>
      match j.spec.params with
      | .protect level => (send s i .protect [level], none)
      | _ => (s, none)

/-- The lane takes step `st` in hand and does what it calls for. -/
def enterStep (s : State) (i : LaneId) (st : Step) : Stepped :=
  proceed (s.modLane i (fun l => { l with step := st })) i

/-- The first step of a PROGRAM's segment `k` (R62, R63). -/
def segmentStep (j : JobSpec) (k : Nat) : Step := if j.eraseBefore then .programErase k else .programWrite k

/-! ### Taking up a job -/

/-- An ATTACH is taken up: any session ends, the window is stored, and the lane enters POWERING or RESETTING by the
state of its switch (R34, R35, R36). -/
def attachTakeUp (s : State) (i : LaneId) (p : AttachParams) : State :=
  (releasePin s i).modLane i (fun l =>
    let l1 : Lane :=
      { l.endSession.stopPhases with
        faultCode := none, attempts := 0, vmin := p.vmin, vmax := p.vmax, outOfWindow := 0 }
    if l.power then l1.enterResetting p.resetPulse else l1.enterPowering p.powerSettle)

/-- A DETACH without RUN: MODE deasserted, RESET asserted, power off, in this order, and the lane OFF (R43). -/
def detachOff (s : State) (i : LaneId) : State := switchOff ((releasePin s i).modLane i Lane.enterOff) i

/-- The outcome at once of a job that needs a session on a lane that has none, or none when it has one (R32). -/
def sessionMissing (l : Lane) : Option LaneOutcome :=
  match l.state with
  | .ready => none
  | .busy => none
  | .faulted => some .laneFaulted
  | .off => some .notAttached
  | .released => some .notAttached
  | .powering => some .notAttached
  | .resetting => some .notAttached
  | .training => some .notAttached

/-- The first step of an ERASE, PROGRAM, VERIFY, READBACK or PROTECT whose pre-checks have passed; a PROGRAM fills
its window, unless it is image-failed and ends at once (R62, R81, R91). -/
def firstStep (s : State) (i : LaneId) (n : SlotId) (j : Job) : Stepped :=
  match j.spec.params with
  | .erase => enterStep s i (if j.spec.eraseAll then .eraseAll else .eraseRegion 0 0)
  | .program =>
    if j.imageFailed.isSome then (s, some (hostReadVerdict j))
    else enterStep (fillWindow s i n j) i (segmentStep j.spec 0)
  | .verify => enterStep s i (.verifySum 0)
  | .readback _ _ _ _ => enterStep s i (.readbackRead 0)
  | .protect _ => enterStep s i .protect
  | .attach _ => (s, none)
  | .detach _ => (s, none)
  | .barrier => (s, none)
  | .loadCredential _ _ _ _ => (s, none)
  | .clearCredential _ => (s, none)
  | .abort _ _ => (s, none)

/-- A job that works inside a session is taken up (R32, R59). -/
def sessionJobTakeUp (s : State) (i : LaneId) (n : SlotId) (j : Job) : Stepped :=
  match sessionMissing (s.lane i) with
  | some o => (s, some (Verdict.plain o))
  | none =>
    match preCheck (s.lane i).identityOr (s.lane i).unlocked j with
    | some v => (s, some v)
    | none => firstStep s i n j

/-- The lane takes up the job of slot `n`: the job-bound fields are set, and the lane acts by the job's kind and its
own state (R30, R32). -/
def takeUp (s : State) (i : LaneId) (n : SlotId) : Stepped :=
  match s.slot n with
  | none => (s, none)
  | some j =>
    let s1 := s.modLane i Lane.startJob
    match j.spec.params with
    | .attach p => (attachTakeUp s1 i p, none)
    | .detach _ =>
      if j.spec.run then
        if (s1.lane i).state = .ready then enterStep s1 i .detachStart
        else (s1, some (Verdict.plain .notAttached))
      else (detachOff s1 i, some (Verdict.plain .ok))
    | .erase => sessionJobTakeUp s1 i n j
    | .program => sessionJobTakeUp s1 i n j
    | .verify => sessionJobTakeUp s1 i n j
    | .readback _ _ _ _ => sessionJobTakeUp s1 i n j
    | .protect _ => sessionJobTakeUp s1 i n j
    | .barrier => (s1, none)
    | .loadCredential _ _ _ _ => (s1, none)
    | .clearCredential _ => (s1, none)
    | .abort _ _ => (s1, none)

/-- A job becomes the lane's current job: the last refusal is cleared, and a QUEUED job becomes ACTIVE (R29, R55). -/
def becomeCurrent (s : State) (i : LaneId) (n : SlotId) : State :=
  (s.modSlot n (fun j => if j.state = .queued then { j with state := .active } else j)).modLane i
    (fun l => { l with lastRefusal := none })

/-- The lane's part of the job of slot `n`, which it has taken up, ends with the verdict `v`. -/
def conclude (s : State) (i : LaneId) (n : SlotId) (v : Verdict) : State :=
  match s.slot n with
  | none => closeJob s i n ((s.lane i).result .barrier true v)
  | some j => closeJob s i n ((s.lane i).result j.spec.params true v)

/-- The head of the lane's queue becomes current and, unless the device is in FAULT, is taken up; a job that ends at
once makes way for the next, as often as `fuel` allows (R32, R58). A lane queue's length is fuel enough. -/
def settle : Nat → State → LaneId → State
  | 0, s, _ => s
  | fuel + 1, s, i =>
    match (s.lane i).queue with
    | [] => s
    | n :: _ =>
      let s1 := becomeCurrent s i n
      if s1.ctl.device = .fault then s1
      else match takeUp s1 i n with
        | (s2, none) => s2
        | (s2, some v) => settle fuel (conclude s2 i n v) i

/-- The lane's queue moves on after a job has left its head (R58). -/
def nextJob (s : State) (i : LaneId) : State := settle (s.lane i).queue.length s i

/-- The lane's part of its current job ends with a verdict, and the next job is taken up (R56, R58). -/
def finishLane (s : State) (i : LaneId) (v : Verdict) : State :=
  match (s.lane i).queue with
  | [] => s
  | n :: _ => nextJob (conclude s i n v) i

/-- An operation on a lane is brought to its end: a verdict ends the lane's part of its current job. -/
def resolveStep (i : LaneId) (p : Stepped) : State :=
  match p.2 with
  | none => p.1
  | some v => finishLane p.1 i v

/-! ### Lane faults and lane events -/

/-- The codes of the supply faults, which switch the power off (R44). -/
def FaultCode.isSupply : FaultCode → Bool
  | .supplyRange => true
  | .brownout => true
  | .overcurrent => true
  | .noTarget => false
  | .noResponse => false
  | .targetStalled => false
  | .protocol => false
  | .rateSwitch => false

/-- The failing request kind of a lane fault that abandons a request, as the rules give it: of UNLOCK and of the requests
of ERASE, PROGRAM, VERIFY, READBACK and PROTECT the request's kind (R71, R104); of IDENTIFY only where a NAK refused it
(R37, R39); of SET_RATE and START none (R38, R42, R75). With an abort pending on an ATTACH it is the request's kind,
as R151 has it (DEDUCED, log 38). -/
def faultKind (j : Job) (q : Request) (refused : Bool) : Option ReqKind :=
  match q.kind with
  | .identify => if refused || j.abortMark then some .identify else none
  | .setRate => if j.abortMark then some .setRate else none
  | .start => none
  | .unlock => some .unlock
  | .erase => some .erase
  | .write => some .write
  | .read => some .read
  | .sum => some .sum
  | .protect => some .protect

/-- The verdict of a lane fault on the lane's current job: the code, the failing request kind, and the abandoned request's
address where it carries one (R71, R75). -/
def Lane.faultVerdict (l : Lane) (j : Job) (code : FaultCode) (refused : Bool) : Verdict where
  outcome := .faulted code
  nak := none
  kind := l.outstanding.bind (fun q => faultKind j q refused)
  addr := l.outstanding.bind (fun q => requestAddr q.kind q.payload)

/-- A lane fault with no current job raises a lane event, which replaces a pending one (R49, R50). -/
def raiseEvent (s : State) (i : LaneId) (code : FaultCode) : State :=
  offer (s.modLane i (fun l => { l with pendingEvent := some { code := code, sample := l.lastSample } })) (.laneEvent i)

/-- A lane fault (R44): on a lane already FAULTED, a second fault, which only switches the power off, and only for a
supply fault (R47); else the lane is made FAULTED, and its current job gets the fault code or a lane event is
raised. `refused` says that a NAK to IDENTIFY is the cause (R37). -/
def faultLane (s : State) (i : LaneId) (code : FaultCode) (refused : Bool) : State :=
  if (s.lane i).state = .faulted then
    if code.isSupply then switchOff s i else s
  else
    let l := s.lane i
    let s1 := (releasePin s i).modLane i (fun k => k.enterFaulted code)
    let s2 := if code.isSupply then switchOff s1 i else s1
    match currentJob s i with
    | some (n, j) => nextJob (closeJob s2 i n (l.result j.spec.params (l.step != .none) (l.faultVerdict j code refused))) i
    | none => raiseEvent s2 i code

/-- A lane fault of any cause but a NAK to IDENTIFY (R44). -/
def laneFault (s : State) (i : LaneId) (code : FaultCode) : State := faultLane s i code false

/-- A NAK other than FRAME to IDENTIFY: lane fault PROTOCOL with the failing request kind IDENTIFY (R37). -/
def identifyRefused (s : State) (i : LaneId) : State := faultLane s i .protocol true

end Sys2Proof.Machine
end

