-- ==== Sys2Proof/Machine/Link.lean ====
section
/-! DEFINITION. The Loader Link commands: frames sent and received, timeouts, chunks and readback writes (R8 to R13,
R21 to R25, R37 to R42, R61 to R71, R85, R89, R104, R151). -/

namespace Sys2Proof.Machine

/-! ### Answers to the outstanding request -/

/-- The protection level that an ERASE ACK reports, or a PROTECT ACK confirms, goes into the identity record
(R107). -/
def Lane.setLevel (l : Lane) (level : Byte) : Lane :=
  { l with identity := l.identity.map (fun d => { d with level := level }) }

/-- A HELLO is accepted: the identity record is stored whole and the unlocked flag set from it (R37, R39). -/
def Lane.storeIdentity (l : Lane) (d : Identity) : Lane :=
  { l with identity := some d, unlocked := !d.credentialRequired }

/-- The lane's cursor after a chunk of `len` bytes: within the block, at the next block, or at block 0 of the next
segment (R65). After the job's last block it stands at block 0 of the segment past the last (DESIGN CHOICE, log 43). -/
def Lane.advanceCursor (l : Lane) (g : Segment) (len : Nat) : Lane :=
  if l.offset + len < g.validBytes l.block then { l with offset := l.offset + len }
  else if l.block + 1 < g.blocks then { l with offset := 0, block := l.block + 1 }
  else { l with offset := 0, block := 0, segment := l.segment + 1 }

/-- The lane leaves the reference set of the block that it has consumed (R65, R85). -/
def consumeBlock (s : State) (i : LaneId) (n : SlotId) (segment block : Nat) : State :=
  match s.pool.find n segment block with
  | none => s
  | some b => s.setPool (Pool.leave i s.pool b)

/-- A WRITE's ACK: the chunk's bytes are fed to the accumulator and counted, the cursor advances, and a block used
up is consumed (R65, R85). -/
def writeAcked (s : State) (i : LaneId) (n : SlotId) (g : Segment) (chunk : List Byte) : State :=
  let l := s.lane i
  let s1 := s.modLane i (fun k =>
    { k.advanceCursor g chunk.length with crc := crc32Feed k.crc chunk, bytes := k.bytes + chunk.length })
  if l.offset + chunk.length < g.validBytes l.block then s1 else consumeBlock s1 i n l.segment l.block

/-- The sectors that an ERASE asked for, and the address just past the last of them (R61, R63). -/
def eraseSpan (d : Identity) (req : Request) : Nat × Nat :=
  let count := beField req.payload 4 1
  (count, beField req.payload 0 4 + count * d.sectorSize.toNat)

/-- The usual effect of a good answer on the lane context, once the request has ended (R37, R42, R61 to R70, R104,
R107, R151). -/
def answerEffect (s : State) (i : LaneId) (n : SlotId) (j : Job) (req : Request) (payload : List Byte) : State :=
  let d := (s.lane i).identityOr
  match (s.lane i).step with
  | .attachIdentify => s.modLane i (fun l => l.storeIdentity (parseIdentity payload))
  | .attachIdentifyAgain => s.modLane i (fun l => l.storeIdentity (parseIdentity payload))
  | .attachSetRate =>
    match j.spec.params with
    | .attach p => s.modLane i (fun l => { l with rateGap := some p.targetRate, step := .attachRateGap, rx := none })
    | _ => s
  | .attachCredential => s.modLane i (fun l => { l with unlocked := l.identity.isSome })
  | .detachStart => s.modLane i Lane.enterReleased
  | .eraseAll => s.modLane i (fun l => l.setLevel (payload.getD 0 0))
  | .eraseRegion _ _ => s.modLane i (fun l => l.setLevel (payload.getD 0 0))
  | .programErase _ =>
    s.modLane i (fun l => { l.setLevel (payload.getD 0 0) with erasedThrough := (eraseSpan d req).2 })
  | .programWrite k =>
    match j.list[k]? with
    | none => s
    | some g => writeAcked s i n g (req.payload.drop 4)
  | .readbackRead _ => s.modLane i (fun l => { l with bytes := l.bytes + payload.length })
  | .protect =>
    match j.spec.params with
    | .protect level => s.modLane i (fun l => l.setLevel level)
    | _ => s
  | .programVerify _ => s
  | .verifySum _ => s
  | .none => s
  | .attachPhase => s
  | .attachRateGap => s
  | .readbackWrite _ => s

/-- The next segment of a PROGRAM, or the outcome OK after the last (R62). -/
def nextSegment (s : State) (i : LaneId) (j : Job) (k : Nat) : Stepped :=
  let s1 := s.modLane i (fun l => { l with crc := crc32Init })
  if k + 1 < j.list.length then enterStep s1 i (segmentStep j.spec (k + 1)) else (s1, some (Verdict.plain .ok))

/-- The end of a segment's write step: the image check, then the verify step (R66). -/
def segmentWritten (s : State) (i : LaneId) (j : Job) (k : Nat) (g : Segment) : Stepped :=
  if g.hasCrc && crc32Final (s.lane i).crc != g.crc then
    (s, some { Verdict.plain .imageCheck with addr := some g.target })
  else if j.spec.verifyAfter then enterStep s i (.programVerify k)
  else nextSegment s i j k

/-- The verdict on a SUM that differs (R66, R67). -/
def mismatchVerdict (g : Segment) : Verdict :=
  { Verdict.plain .verifyMismatch with kind := some .sum, addr := some g.target }

/-- The host address of a lane's readback payload at an offset (R68). Past 2^64 it wraps to 0 (DESIGN CHOICE,
log 34). -/
def readbackAddr (j : JobSpec) (i : LaneId) (off : Nat) : BitVec 64 :=
  match j.params with
  | .readback _ _ dest stride => dest + BitVec.ofNat 64 (ordinal j.lanes i * stride + off)
  | _ => 0

/-- How the step goes on after a good answer's usual effect (R37 to R42, R61 to R70). `before` is the lane as the
answer found it. -/
def afterAnswer (s : State) (i : LaneId) (n : SlotId) (j : Job) (before : Lane) (req : Request)
    (payload : List Byte) : Stepped :=
  let d := (s.lane i).identityOr
  match before.step with
  | .attachIdentify =>
    match j.spec.params with
    | .attach p => rateDecision s i p
    | _ => (s, none)
  | .attachIdentifyAgain =>
    match j.spec.params with
    | .attach p => unlockDecision s i p
    | _ => (s, none)
  | .attachSetRate => (s, none)
  | .attachCredential => (s, some (Verdict.plain .ok))
  | .detachStart => (s, some (Verdict.plain .ok))
  | .eraseAll => (s, some (Verdict.plain .ok))
  | .eraseRegion k done =>
    match j.list[k]? with
    | none => (s, none)
    | some g =>
      let done1 := done + (eraseSpan d req).1
      if done1 < regionSectors d g then enterStep s i (.eraseRegion k done1)
      else if k + 1 < j.list.length then enterStep s i (.eraseRegion (k + 1) 0)
      else (s, some (Verdict.plain .ok))
  | .programErase k => enterStep s i (.programErase k)
  | .programWrite k =>
    match j.list[k]? with
    | none => (s, none)
    | some g =>
      let l := s.lane i
      let s1 := if l.segment = before.segment && l.block = before.block then s else fillWindow s i n j
      if l.segment = before.segment then enterStep s1 i (.programWrite k) else segmentWritten s1 i j k g
  | .programVerify k =>
    match j.list[k]? with
    | none => (s, none)
    | some g =>
      if BitVec.ofNat 32 (beNat payload) = crc32Final (s.lane i).crc then nextSegment s i j k
      else (s, some (mismatchVerdict g))
  | .verifySum k =>
    match j.list[k]? with
    | none => (s, none)
    | some g =>
      if BitVec.ofNat 32 (beNat payload) = g.crc then
        if k + 1 < j.list.length then enterStep s i (.verifySum (k + 1)) else (s, some (Verdict.plain .ok))
      else (s, some (mismatchVerdict g))
  | .readbackRead off =>
    (s.modLane i (fun l =>
      { l with readback := some { addr := readbackAddr j.spec i off, bytes := payload }, step := .readbackWrite off }), none)
  | .protect => (s, some (Verdict.plain .ok))
  | .none => (s, none)
  | .attachPhase => (s, none)
  | .attachRateGap => (s, none)
  | .readbackWrite _ => (s, none)

/-- A good answer of the right form ends the request (R25). With an abort pending the lane's outcome is then ABORTED
(R151), but for a START, which ends as DETACH does (R153); on an image-failed job it is HOST_READ (R89). -/
def goodAnswer (s : State) (i : LaneId) (n : SlotId) (j : Job) (req : Request) (payload : List Byte) : Stepped :=
  let before := s.lane i
  let s1 := (releasePin s i).modLane i Lane.endRequest
  let s2 := answerEffect s1 i n j req payload
  if j.abortMark && req.kind != .start then (s2, some (Verdict.plain .aborted))
  else if j.imageFailed.isSome then (s2, some (hostReadVerdict j))
  else afterAnswer s2 i n j before req payload

/-- The verdict on a refused request: the reason and the request's kind, and the address of an ERASE, WRITE, READ or SUM
(R12, R71, R89, R104, R151, R153). -/
def refusalVerdict (j : Job) (req : Request) (reason : NakReason) : Verdict :=
  if j.abortMark && req.kind != .start then Verdict.plain .aborted
  else if j.imageFailed.isSome then hostReadVerdict j
  else if req.kind = .unlock && reason = .auth then
    { outcome := .authRejected, nak := some reason, kind := some req.kind, addr := none }
  else { outcome := .targetRefused, nak := some reason, kind := some req.kind, addr := requestAddr req.kind req.payload }

/-- The target's count of attempts falls by one in the identity record (R104). -/
def Lane.spendAttempt (l : Lane) : Lane :=
  { l with identity := l.identity.map (fun d => { d with attempts := d.attempts - 1 }) }

/-- A NAK other than FRAME ends the request as refused; the lane keeps the refusal and is READY (R12, R25, R104). -/
def refuse (s : State) (i : LaneId) (j : Job) (req : Request) (reason : NakReason) : Stepped :=
  let s1 := (releasePin s i).modLane i (fun l =>
    { l.endRequest with
      lastRefusal := some { reason := reason, kind := req.kind, addr := requestAddr req.kind req.payload } })
  let s2 := if req.kind = .unlock && reason = .auth then s1.modLane i Lane.spendAttempt else s1
  (s2, some (refusalVerdict j req reason))

/-- A matching WAIT: it is counted, the 256th faults the lane, and a running response timer is restarted at the
smaller of its estimate plus the response timeout and the wait cap (R23). -/
def takeWait (s : State) (i : LaneId) (req : Request) (estimate : Nat) : State :=
  if Config.maxWaits ≤ req.waits + 1 then laneFault s i .targetStalled
  else
    let timer := req.timer.map (fun _ => min (estimate + s.responseTimeout) s.waitCap)
    s.modLane i (fun l => { l with outstanding := some { req with waits := req.waits + 1, timer := timer } })

/-- A HELLO after a rate change with a device class other than the stored record's (R39). -/
def classChanged (l : Lane) (payload : List Byte) : Bool :=
  l.step == .attachIdentifyAgain && (l.identity.map Identity.deviceClass) != some (parseIdentity payload).deviceClass

/-- A good frame is matched against the outstanding request and taken (R9, R10, R12, R23, R24, R25). A NAK to IDENTIFY is
the lane fault of R37 with an abort pending as well (DEDUCED, log 45). -/
def takeFrame (s : State) (i : LaneId) (seq kind : Byte) (payload : List Byte) : State :=
  match (s.lane i).outstanding, currentJob s i with
  | some req, some (n, j) =>
    if seq ≠ req.seq then s
    else match classify req (s.lane i).rate kind payload with
      | .breach => laneFault s i .protocol
      | .wait estimate => takeWait s i req estimate
      | .nak reason =>
        if reason = .frame then retransmitAtOnce s i
        else if req.kind = .identify then identifyRefused s i
        else resolveStep i (refuse s i j req reason)
      | .good =>
        if req.kind = .identify && classChanged (s.lane i) payload then laneFault s i .protocol
        else resolveStep i (goodAnswer s i n j req payload)
  | _, _ => s

/-! ### The commands -/

/-- The characters of the frame that the lane's receiver would hold after `chars` (R8). -/
def Lane.received (l : Lane) (chars : List Byte) : List Byte := (l.rx.getD []) ++ chars

/-- FRAME_RECEIVED (R9): the characters complete a good frame; the receiver is outside a frame again, and the frame
is matched. A lane whose receiver does not take frames discards it (R3). -/
def execFrameReceived (i : LaneId) (chars : List Byte) (s : State) : Result :=
  if (s.lane i).receiving && !chars.isEmpty then
    match rxStatus ((s.lane i).received chars) with
    | .good seq kind payload => .next (takeFrame (s.modLane i (fun l => { l with rx := none })) i seq kind payload)
    | .notAFrame => .next s
    | .inside => .next s
    | .tooLong => .next s
    | .badCrc => .next s
  else .next s

/-- A spoiled frame is discarded and counted, and may cause a retransmission (R8, R24). It is counted with no request
outstanding as well, so also while a lane waits for a staging block, where R84 says that the counters do not change
(DESIGN CHOICE, log 44). -/
def spoilFrame (s : State) (i : LaneId) : State :=
  retransmitAtOnce (s.modLane i (fun l => { l with rx := none, linkErrors := l.linkErrors + 1 })) i

/-- The characters, and then the character in error if there is one, spoil a frame (R8). -/
def spoils (l : Lane) (chars : List Byte) (bad : Option RxChar) : Bool :=
  match bad with
  | some c => c.inError && rxStatus (l.received chars) == .inside
  | none => !chars.isEmpty && (rxStatus (l.received chars) == .tooLong || rxStatus (l.received chars) == .badCrc)

/-- FRAME_SPOILED (R8, R24). -/
def execFrameSpoiled (i : LaneId) (chars : List Byte) (bad : Option RxChar) (s : State) : Result :=
  if (s.lane i).receiving && spoils (s.lane i) chars bad then .next (spoilFrame s i) else .next s

/-- FRAME_GAP_TIMEOUT: the 5 ms run out inside a frame (R8). -/
def execFrameGapTimeout (i : LaneId) (s : State) : Result :=
  if (s.lane i).receiving && (s.lane i).rx.isSome then .next (spoilFrame s i) else .next s

/-- FRAME_CHARACTER_RECEIVED: outside a frame a start character begins one and every other character is discarded;
inside, a character that does not end the frame is its next field (R3, R8). One that ends it is the happening of
FRAME_RECEIVED or FRAME_SPOILED (log 21). -/
def execFrameCharacterReceived (i : LaneId) (char : RxChar) (s : State) : Result :=
  if (s.lane i).receiving && !char.inError && rxStatus ((s.lane i).received [char.data]) == .inside then
    .next (s.modLane i (fun l => { l with rx := some (l.received [char.data]) }))
  else .next s

/-- FRAME_SENT: the last CRC byte has gone out. For a transmission of the outstanding request the response timer
starts (R22); a frame whose request has ended starts none (R25), and what waited for TXD then begins (R1; log 10). -/
def execFrameSent (i : LaneId) (s : State) : Result :=
  match (s.lane i).tx with
  | .idle => .next s
  | .pattern _ => .next s
  | .frame _ live =>
    let s1 := s.modLane i (fun l => { l with tx := .idle })
    if live then
      .next (s1.modLane i (fun l =>
        { l with outstanding := l.outstanding.map (fun q => { q with timer := some s.responseTimeout }) }))
    else if (s.lane i).state = .training then .next (s1.modLane i (fun l => { l with tx := .pattern Config.trainingPattern }))
    else if (s.lane i).state = .ready then .next (resolveStep i (proceed s1 i))
    else .next s1

/-- The fault code of a request whose retries run out: RATE_SWITCH for the IDENTIFY after a rate change (R22, R39). -/
def Lane.timeoutCode (l : Lane) : FaultCode := if l.step = .attachIdentifyAgain then .rateSwitch else .noResponse

/-- RESPONSE_TIMEOUT (R22). -/
def execResponseTimeout (i : LaneId) (s : State) : Result :=
  match (s.lane i).outstanding with
  | none => .next s
  | some req =>
    if req.timer.isNone then .next s
    else if req.retries < retryLimit s i then .next (s.modLane i (fun l => l.retransmit req))
    else .next (laneFault s i (s.lane i).timeoutCode)

/-- CHUNK_SEND: a lane in its write step whose cursor block is READY sends the next chunk (R64, R83, R84). -/
def execChunkSend (i : LaneId) (s : State) : Result :=
  match (s.lane i).step with
  | .programWrite _ => .next (resolveStep i (proceed s i))
  | _ => .next s

/-- A readback host write has ended good: the next READ, or outcome OK after the last payload (R68). -/
def readbackWritten (s : State) (i : LaneId) (j : Job) (off : Nat) : Stepped :=
  let s1 := s.modLane i (fun l => { l with readback := none })
  match j.spec.params with
  | .readback _ len _ _ =>
    if off + Config.blockBytes < len then enterStep s1 i (.readbackRead (off + Config.blockBytes))
    else (s1, some (Verdict.plain .ok))
  | _ => (s1, none)

/-- The verdict on a failed readback write: the address of the READ whose data was being written (R69). -/
def hostWriteVerdict (j : JobSpec) (off : Nat) : Verdict :=
  match j.params with
  | .readback target _ _ _ =>
    { outcome := .hostWrite, nak := none, kind := some .read, addr := some (target + BitVec.ofNat 32 off) }
  | _ => Verdict.plain .hostWrite

/-- The lane's readback host write is one that a job whose part on the lane has ended left in flight (R69). -/
def Lane.writeLeft (l : Lane) : Bool :=
  l.readback.isSome && (match l.step with
    | .readbackWrite _ => false
    | _ => true)

/-- The end of a readback host write that an ended job left in flight: its result, good or failed, is discarded, and a
request of the current job that has waited for it goes out (R69; log 39). -/
def endedWriteOut (s : State) (i : LaneId) : State :=
  let s1 := s.modLane i (fun l => { l with readback := none })
  if (s.lane i).state = .ready ∨ (s.lane i).state = .training then resolveStep i (proceed s1 i) else s1

/-- READBACK_WRITE_END (R68, R69): `live` ends the current job's write, `abandoned` the one that an ended job left in
flight. -/
def execReadbackWriteEnd (e : Epoch) (i : LaneId) (r : HostWrite) (s : State) : Result :=
  match e with
  | .abandoned => if (s.lane i).writeLeft then .next (endedWriteOut s i) else .next s
  | .live =>
    match (s.lane i).step, (s.lane i).readback, currentJob s i with
    | .readbackWrite off, some _, some (_, j) =>
      match r with
      | .good => .next (resolveStep i (readbackWritten s i j off))
      | .failed =>
        .next (resolveStep i (s.modLane i (fun l => { l with readback := none }), some (hostWriteVerdict j.spec off)))
    | _, _, _ => .next s

end Sys2Proof.Machine
end

