-- ==== Sys2Proof/Machine/Session.lean ====
section
/-! DEFINITION. The commands of a lane's phases: training, and the timers of ATTACH (R4, R5, R33, R35 to R39). -/

namespace Sys2Proof.Machine

/-- The parameters of the lane's current job, when it is an ATTACH that the lane has taken up. -/
def attachParams (s : State) (i : LaneId) : Option AttachParams :=
  match currentJob s i with
  | none => none
  | some (_, j) =>
    match j.spec.params with
    | .attach p => if (s.lane i).step = .none then none else some p
    | _ => none

/-- TRAINING_PATTERN_SENT: the stop bit of the third 0x55 is out; a lane in TRAINING starts its training timer (R4). -/
def execTrainingPatternSent (i : LaneId) (s : State) : Result :=
  match (s.lane i).tx with
  | .pattern _ =>
    .next (s.modLane i (fun l =>
      { l with tx := .idle, training := if l.state = .training then some Config.trainingMs else l.training }))
  | .idle => .next s
  | .frame _ _ => .next s

/-- The session opens: the training timer stops, next seq is 1, the receiver stands outside a frame, and IDENTIFY is
sent at once (R4, R37), or at the end of an ended job's readback write, the lane in TRAINING until then (R69; DESIGN
CHOICE, log 39). -/
def openSession (s : State) (i : LaneId) : State :=
  resolveStep i (enterStep (s.modLane i (fun l => { l with training := none, nextSeq := 1, rx := none })) i .attachIdentify)

/-- TRAINING_CHARACTER_RECEIVED: a 0xB3 not in error, after the pattern and before the training timer runs out, ends
the attempt with success; every other character is discarded (R4). In device state FAULT it stops the timer and
opens no session (R33). -/
def execTrainingCharacterReceived (i : LaneId) (char : RxChar) (s : State) : Result :=
  if (s.lane i).state = .training && (s.lane i).training.isSome && !char.inError
      && char.data == Config.trainingAnswer then
    if s.ctl.device = .fault then .next (s.modLane i (fun l => { l with training := none }))
    else .next (openSession s i)
  else .next s

/-- TRAINING_TIMEOUT: a fresh reset pulse while fewer than 4 attempts have begun, but none in device state FAULT;
after the fourth, lane fault NO_TARGET (R5, R33). -/
def execTrainingTimeout (i : LaneId) (s : State) : Result :=
  if (s.lane i).state = .training && (s.lane i).training.isSome then
    let s1 := s.modLane i (fun l => { l with training := none })
    if Config.maxAttempts ≤ (s.lane i).attempts then .next (laneFault s1 i .noTarget)
    else if s.ctl.device = .fault then .next s1
    else match attachParams s i with
      | some p => .next (s1.modLane i (fun l => l.enterResetting p.resetPulse))
      | none => .next s1
  else .next s

/-- A CHECK request for the lane is placed with the Supply Monitor; none is for a lane whose switch is off (R112,
R115). -/
def Lane.placeCheck (l : Lane) : Lane := if l.power then { l with checkPending := true } else l

/-- POWER_SETTLE_EXPIRY (R35). -/
def execPowerSettleExpiry (i : LaneId) (s : State) : Result :=
  match (s.lane i).powerSettle with
  | none => .next s
  | some _ => .next (s.modLane i (fun l => { l with powerSettle := none }.placeCheck))

/-- CHECK_WAIT_EXPIRY (R35, R116). -/
def execCheckWaitExpiry (i : LaneId) (s : State) : Result :=
  match (s.lane i).checkWait with
  | none => .next s
  | some _ => .next (s.modLane i (fun l => { l with checkWait := none }.placeCheck))

/-- RESET_PULSE_EXPIRY: RESET is released and the boot settle timer starts, in device state FAULT as well (R33,
R36). -/
def execResetPulseExpiry (i : LaneId) (s : State) : Result :=
  match (s.lane i).resetPulse, attachParams s i with
  | some _, some p =>
    if (s.lane i).state = .resetting then
      .next (s.modLane i (fun l => { l.driveReset false with resetPulse := none, bootSettle := some p.bootSettle }))
    else .next s
  | _, _ => .next s

/-- BOOT_SETTLE_EXPIRY: the lane enters TRAINING and a training attempt begins (R4, R36); in device state FAULT it
stays in RESETTING with RESET released and no attempt begun (R33). -/
def execBootSettleExpiry (i : LaneId) (s : State) : Result :=
  match (s.lane i).bootSettle, attachParams s i with
  | some _, some p =>
    if (s.lane i).state = .resetting then
      let s1 := s.modLane i (fun l => { l with bootSettle := none })
      if s.ctl.device = .fault then .next s1
      else .next (s1.modLane i (fun l => (l.enterTraining p.startRate).driveReset false))
    else .next s
  | _, _ => .next s

/-- RATE_GAP_EXPIRY: the rate code of the SET_RATE takes effect, for an aborted ATTACH too; an ATTACH whose gap it is
then sends IDENTIFY at the new rate (R2, R19, R39, R150). -/
def execRateGapExpiry (i : LaneId) (s : State) : Result :=
  match (s.lane i).rateGap with
  | none => .next s
  | some r =>
    let s1 := s.modLane i (fun l => { l with rateGap := none, rate := r })
    if (s.lane i).step = .attachRateGap then .next (resolveStep i (enterStep s1 i .attachIdentifyAgain)) else .next s1

end Sys2Proof.Machine
end

