-- ==== Sys2Proof/Machine/SupplyMonitor.lean ====
section
/-! DEFINITION. The Supply Monitor's commands: the supervise timer, the converter and its arbiter, and the
current-limit trip (R110 to R121). -/

namespace Sys2Proof.Machine

/-- SUPERVISE_TIMER_EXPIRY: a SUPERVISE request for every lane whose switch is on and which has none; the timer
starts again at the period in force (R117). -/
def execSuperviseTimerExpiry (s : State) : Result :=
  match s.supply.timer, s.ctl.inForce with
  | some _, some c =>
    .next { s with
      lanes := s.lanes.map (fun l => if l.power then { l with supervisePending := true } else l)
      supply := { s.supply with timer := some c.supervisePeriod } }
  | _, _ => .next s

/-- The lanes in the order in which an arbiter looks at them: upward from the lane after the last served, wrapping
from lane 15 to lane 0 (R113). -/
def lanesAfter (last : LaneId) : List LaneId := (List.range 16).map (fun k => last + 1 + Fin.ofNat 16 k)

/-- The CHECK request that the arbiter would take: the first lane with one (R113). -/
def nextCheck (s : State) : Option LaneId := (lanesAfter s.supply.checkPtr).find? (fun i => (s.lane i).checkPending)

/-- The SUPERVISE request that the arbiter would take (R113). -/
def nextSupervise (s : State) : Option LaneId :=
  (lanesAfter s.supply.supervisePtr).find? (fun i => (s.lane i).supervisePending)

/-- CONVERSION_START: an idle converter takes a CHECK request before any SUPERVISE request; the request leaves the
queue and the pointer of its class moves (R113). -/
def execConversionStart (s : State) : Result :=
  match s.supply.converter with
  | some _ => .next s
  | none =>
    match nextCheck s with
    | some i =>
      let s1 := s.modLane i (fun l => { l with checkPending := false })
      .next { s1 with supply :=
        { s1.supply with converter := some { lane := i, cls := .check, void := false }, checkPtr := i } }
    | none =>
      match nextSupervise s with
      | some i =>
        let s1 := s.modLane i (fun l => { l with supervisePending := false })
        .next { s1 with supply :=
          { s1.supply with converter := some { lane := i, cls := .supervise, void := false }, supervisePtr := i } }
      | none => .next s

/-- What the converter yields for a sense voltage: whole mV, held to 0-6 000 (R114). -/
def sampleOf (senseMv : Int) : Nat := min senseMv.toNat Config.maxSample

/-- The sample lies within the lane's window, both ends included (R35, R116, R118). -/
def Lane.inWindow (l : Lane) (mv : Nat) : Bool := l.vmin ≤ mv && mv ≤ l.vmax

/-- A CHECK result is taken by its lane (R35, R116): within the window it leads to RESETTING, but not in device state
FAULT; outside it the lane waits 1 ms, or faults at the third. -/
def takeCheck (s : State) (i : LaneId) (mv : Nat) : State :=
  if (s.lane i).state = .powering then
    let s1 := s.modLane i (fun l => { l with checkCount := l.checkCount + 1 })
    if (s.lane i).inWindow mv then
      if s.ctl.device = .fault then s1
      else match attachParams s i with
        | some p => s1.modLane i (fun l => l.enterResetting p.resetPulse)
        | none => s1
    else if Config.maxChecks ≤ (s.lane i).checkCount + 1 then laneFault s1 i .supplyRange
    else s1.modLane i (fun l => { l with checkWait := some Config.checkWaitMs })
  else s

/-- A SUPERVISE result is judged (R118): inside the window the count becomes 0; outside, 1, and at the second in a
row 2 with lane fault BROWNOUT. -/
def takeSupervise (s : State) (i : LaneId) (mv : Nat) : State :=
  if (s.lane i).inWindow mv then s.modLane i (fun l => { l with outOfWindow := 0 })
  else if (s.lane i).outOfWindow = 0 then s.modLane i (fun l => { l with outOfWindow := 1 })
  else laneFault (s.modLane i (fun l => { l with outOfWindow := 2 })) i .brownout

/-- CONVERSION_END: the converter becomes idle; unless the conversion is void, the result becomes the lane's last
sample and is taken by its class (R114). -/
def execConversionEnd (senseMv : Int) (s : State) : Result :=
  match s.supply.converter with
  | none => .next s
  | some c =>
    let s1 : State := { s with supply := { s.supply with converter := none } }
    if c.void then .next s1
    else
      let mv := sampleOf senseMv
      let s2 := s1.modLane c.lane (fun l => { l with lastSample := mv })
      match c.cls with
      | .check => .next (takeCheck s2 c.lane mv)
      | .supervise => .next (takeSupervise s2 c.lane mv)

/-- OVERCURRENT_TRIP: the switch opens by itself and the lane takes lane fault OVERCURRENT, in one happening; a
switch that is off cannot trip (R111). -/
def execOvercurrentTrip (i : LaneId) (s : State) : Result :=
  if (s.lane i).power then .next (laneFault s i .overcurrent) else .next s

end Sys2Proof.Machine
end

