-- ==== Sys2Proof/Machine/Staging.lean ====
section
/-! DEFINITION. The Staging Pool's commands (R82, R83, R88 to R95). -/

namespace Sys2Proof.Machine

/-- STAGING_READ_ISSUE: the read at the front of the fetch queue becomes in flight, when fewer than 16 reads are,
those issued before a reset counted, and the device is not in FAULT (R82, R94, R95). -/
def execStagingReadIssue (s : State) : Result :=
  match s.pool.fetchQueue with
  | [] => .next s
  | b :: rest =>
    if s.ctl.device != .fault && s.pool.inFlight + s.pool.stale < Config.readsInFlight then
      match s.pool.block b with
      | some k =>
        .next (s.setPool { s.pool.setBlock b (some { k with state := .inFlight }) with fetchQueue := rest })
      | none => .next (s.setPool { s.pool with fetchQueue := rest })
    else .next s

/-- A lane of an image-failed job that is current on it, has taken it up and has no request outstanding ends its part
with HOST_READ at once; every other lane is not changed now (R89). -/
def imageFailedLane (n : SlotId) (s : State) (i : LaneId) : State :=
  match currentJob s i with
  | none => s
  | some (m, j) =>
    if m = n && (s.lane i).step != .none && (s.lane i).outstanding.isNone then finishLane s i (hostReadVerdict j) else s

/-- The job of slot `n` becomes image-failed: the first failed block is recorded, and its lanes are dealt with in
ascending order (R88, R89; log 7). A job already marked changes nothing. -/
def imageFailed (s : State) (n : SlotId) (segment index : Nat) : State :=
  match s.slot n with
  | none => s
  | some j =>
    if j.imageFailed.isSome then s
    else
      let s1 := s.setSlot n (some { j with imageFailed := some (segment, index) })
      (lanesOf j.spec.lanes).foldl (imageFailedLane n) s1

/-- The read of a block in flight ends (R83, R88, R92): good, it makes the block READY or frees an orphan; failed, it
frees the block and marks the job. The failed block joins the free list first, before those that the job's lanes free as
they leave (DESIGN CHOICE, log 41). -/
def blockReadEnd (s : State) (b : BlockId) (k : Block) (r : HostRead) : State :=
  match r with
  | .good bytes =>
    if bytes.length ≠ k.valid then s
    else if k.refs = 0 then offerIfClear (s.setPool (s.pool.free b)) k.slot
    else s.setPool (s.pool.setBlock b (some { k with state := .ready bytes }))
  | .failed => offerIfClear (imageFailed (s.setPool (s.pool.free b)) k.slot k.segment k.index) k.slot

/-- STAGING_READ_END (R83, R88); the end of a read issued before a reset is counted and reaches no block (R95). -/
def execStagingReadEnd (e : Epoch) (b : BlockId) (r : HostRead) (s : State) : Result :=
  match e with
  | .abandoned => .next (s.setPool { s.pool with stale := s.pool.stale - 1 })
  | .live =>
    match s.pool.block b with
    | none => .next s
    | some k => if k.state = .inFlight then .next (blockReadEnd s b k r) else .next s

end Sys2Proof.Machine
end

