-- ==== Sys2Proof/Machine/Completion.lean ====
section
/-! DEFINITION. The Completion Writer's commands: the holding queue, a record's transaction, coalescing (R137 to
R144). -/

namespace Sys2Proof.Machine

/-- HOLDING_QUEUE_ENTRY: the candidate at the front of the wait list enters the holding queue if there is room
(R138; log 5). -/
def execHoldingQueueEntry (s : State) : Result := .next (promote s)

/-- The completion record of the holding queue's head, with the phase and the consumer index as they stand (R137). -/
def recordOf (s : State) (r : HeldRecord) : CompletionRecord :=
  match r with
  | .job n =>
    match s.slot n with
    | none =>
      { phase := s.writer.ring.phase, kind := 1, ring := 0, status := 0, tag := 0, detail := 0, word8 := 0,
        word10 := 0, consumer := 0 }
    | some j =>
      let f := j.final.getD { status := .failed, okMask := 0, failMask := 0 }
      { phase := s.writer.ring.phase, kind := 1, ring := j.ring.val, status := f.status.code, tag := j.spec.tag.toNat,
        detail := 0, word8 := f.okMask.toNat, word10 := f.failMask.toNat, consumer := (s.ring j.ring).consumer }
  | .intake c =>
    { phase := s.writer.ring.phase, kind := 1, ring := c.ring.val, status := c.status.code, tag := c.tag.toNat,
      detail := c.detail.code, word8 := 0, word10 := 0, consumer := (s.ring c.ring).consumer }
  | .event i e =>
    { phase := s.writer.ring.phase, kind := 2, ring := 0, status := e.code.code, tag := i.val, detail := 0,
      word8 := e.sample, word10 := 0, consumer := 0 }

/-- The completion record write of the head record (R140, stage 2). An address past 2^64 wraps (DESIGN CHOICE,
log 34). -/
def completionOut (s : State) (r : HeldRecord) : HostWriteOut where
  addr := s.writer.ring.base + BitVec.ofNat 64 (16 * s.writer.ring.tail)
  bytes := (recordOf s r).bytes

/-- The transaction in hand becomes `t`. -/
def State.setTxn (s : State) (t : Option Transaction) : State := { s with writer := { s.writer with txn := t } }

/-- The lane result record writes of a job, in ascending lane order at result address + 32 × ordinal: none without a
result address, and none for a job completed from INTAKE, whose masks are empty (R76, R140). An address past 2^64 wraps
(DESIGN CHOICE, log 34). -/
def resultWrites (j : Job) : List ResultWrite :=
  match j.final with
  | none => []
  | some f =>
    if j.spec.resultAddr = 0 then []
    else (lanesOf (f.okMask ||| f.failMask)).filterMap (fun i =>
      (j.results[i.val]).map (fun r =>
        { lane := i
          out := { addr := j.spec.resultAddr + BitVec.ofNat 64 (32 * ordinal j.spec.lanes i), bytes := resultRecord i r } }))

/-- The result record writes of a record of the holding queue (R140, stage 1). -/
def headWrites (s : State) (r : HeldRecord) : List ResultWrite :=
  match r with
  | .job n =>
    match s.slot n with
    | none => []
    | some j => resultWrites j
  | .intake _ => []
  | .event _ _ => []

/-- The Completion Writer may issue writes: in every device state but ENABLING and FAULT (R140, R144). -/
def State.writerRuns (s : State) : Bool := s.ctl.device != .enabling && s.ctl.device != .fault

/-- COMPLETION_TRANSACTION_START: the head record's transaction begins once the ring has a free entry (R140). -/
def execCompletionTransactionStart (s : State) : Result :=
  match s.writer.holding, s.writer.txn with
  | r :: _, none =>
    if s.writerRuns && s.writer.ring.unreleased < s.writer.ring.size then
      match headWrites s r with
      | [] => .next (s.setTxn (some (.completion (completionOut s r))))
      | ws => .next (s.setTxn (some (.results ws)))
    else .next s
  | _, _ => .next s

/-- Stage 2 begins once every result record write has been reported done and the writer may issue writes (R140,
R141). -/
def beginCompletion (s : State) : State :=
  match s.writer.txn, s.writer.holding with
  | some (.results []), r :: _ => if s.writerRuns then s.setTxn (some (.completion (completionOut s r))) else s
  | _, _ => s

/-- RESULT_RECORD_WRITE_END: a failed write faults the device; in FAULT its result is discarded; the last good one
begins stage 2 (R140, R141). -/
def execResultRecordWriteEnd (e : Epoch) (i : LaneId) (r : HostWrite) (s : State) : Result :=
  match e, s.writer.txn with
  | .live, some (.results ws) =>
    if ws.any (fun w => w.lane == i) then
      let s1 := s.setTxn (some (.results (ws.filter (fun w => w.lane != i))))
      match r with
      | .failed => .next (withMessage s (deviceFault s1 .completionWrite))
      | .good => .next (beginCompletion s1)
    else .next s
  | _, _ => .next s

/-- The record carries IRQ_NOW (R142). -/
def recordIrq (s : State) (r : HeldRecord) : Bool :=
  match r with
  | .job n =>
    match s.slot n with
    | none => false
    | some j => j.spec.irqNow
  | .intake c => c.irqNow
  | .event _ _ => false

/-- A CQ signal: the CQ bit of IRQ, the count to 0, the delay timer stopped (R142). -/
def cqSignal (s : State) : State :=
  let s1 : State := { s with writer := { s.writer with count := 0, delayTimer := none } }
  s1.raise { cq := true, fault := false, halt := false }

/-- The coalescing state takes a record (R142). -/
def coalesce (s : State) (irqNow : Bool) : State :=
  match s.ctl.inForce with
  | none => s
  | some c =>
    let timer := if s.writer.count = 0 then some c.delay else s.writer.delayTimer
    let s1 : State := { s with writer := { s.writer with count := s.writer.count + 1, delayTimer := timer } }
    if c.threshold ≤ s.writer.count + 1 || c.delay = 0 || irqNow then cqSignal s1 else s1

/-- The completion ring takes a record: tail and unreleased count move, the phase inverts at the wrap (R135). -/
def CompletionRing.take (r : CompletionRing) : CompletionRing :=
  if r.tail + 1 = r.size then { r with tail := 0, unreleased := r.unreleased + 1, phase := !r.phase }
  else { r with tail := r.tail + 1, unreleased := r.unreleased + 1 }

/-- The slot that the writing of a record frees (R54, R140). -/
def freeRecordSlot (s : State) (r : HeldRecord) : State :=
  match r with
  | .job n => freeSlot s n
  | .intake _ => s
  | .event _ _ => s

/-- Stage 3 of a record's transaction, in the order of R140: the ring moves, the record leaves the holding queue and
the front of the wait list takes its place, its slot is freed, the coalescing state takes it. In FAULT as well the freed
slot ends the blocked cause SLOT, and may empty a wait set, retire its BARRIER and clear barrier pending (R74, R130),
though R134 keeps both in FAULT (DESIGN CHOICE, log 36). -/
def completeRecord (s : State) (r : HeldRecord) : State :=
  let irq := recordIrq s r
  let s1 : State :=
    { s with writer := { s.writer with ring := s.writer.ring.take, holding := s.writer.holding.tail, txn := none } }
  coalesce (freeRecordSlot (promote s1) r) irq

/-- COMPLETION_RECORD_WRITE_END: stage 3, or FAULT with cause COMPLETION_WRITE; a failure in FAULT is discarded
(R140, R141). The drain of QUIESCING may be complete with it (R161). -/
def execCompletionRecordWriteEnd (e : Epoch) (r : HostWrite) (s : State) : Result :=
  match e, s.writer.txn, s.writer.holding with
  | .live, some (.completion _), h :: _ =>
    match r with
    | .good => .next (withMessage s (drainIfComplete (completeRecord s h)))
    | .failed => .next (withMessage s (deviceFault (s.setTxn none) .completionWrite))
  | _, _, _ => .next s

/-- COALESCING_DELAY_EXPIRY (R142). -/
def execCoalescingDelayExpiry (s : State) : Result :=
  match s.writer.delayTimer with
  | none => .next s
  | some _ => .next (withMessage s (cqSignal s))

end Sys2Proof.Machine
end

