-- ==== Sys2Proof/Machine/Intake.lean ====
section
/-! DEFINITION. The Intake Unit's commands: the arbiter, records, slots and lane queue room, placement, lists,
credential jobs and the abort lookup (R98, R99, R122 to R134, R145 to R155). -/

namespace Sys2Proof.Machine

/-! ### Slots, room and placement -/

/-- The lowest-numbered FREE slot (R54). -/
def freeSlotNumber (s : State) : Option SlotId := allSlots.find? (fun n => (s.slot n).isNone)

/-- The reservations in a lane's queue: one for each job in INTAKE whose set names the lane (R130; log 28). -/
def reservations (s : State) (i : LaneId) : Nat :=
  allSlots.countP (fun n =>
    match s.slot n with
    | none => false
    | some j => j.state == .intake && inSet j.spec.lanes i)

/-- A lane queue has room when its jobs together with its reservations number fewer than 4 (R130). -/
def hasRoom (s : State) (i : LaneId) : Bool := (s.lane i).queue.length + reservations s i < Config.laneQueueRoom

/-- A slot job of the same ring carries the tag (R128). -/
def tagHeld (s : State) (r : RingId) (tag : BitVec 16) : Bool :=
  allSlots.any (fun n =>
    match s.slot n with
    | none => false
    | some j => j.ring == r && j.spec.tag == tag)

/-- The other jobs of a ring that hold slots: a BARRIER's wait set at its placement (R74). -/
def ringSlots (s : State) (r : RingId) (n : SlotId) : List SlotId :=
  allSlots.filter (fun m =>
    match s.slot m with
    | none => false
    | some j => m != n && j.ring == r)

/-- A BARRIER is placed: WAITING with its ring's barrier pending, or RETIRING at once when its wait set is empty
(R74, R132). -/
def placeBarrier (s : State) (n : SlotId) (j : Job) : State :=
  let wait := ringSlots s j.ring n
  if wait.isEmpty then retireBarrier s n .success
  else
    (s.setSlot n (some { j with state := .waiting, waitSet := wait })).modRing j.ring
      (fun r => { r with barrierPending := true })

/-- The job of slot `n` joins the tail of lane `i`'s queue (R57). -/
def joinQueue (n : SlotId) (s : State) (i : LaneId) : State := s.modLane i (fun l => { l with queue := l.queue ++ [n] })

/-- A lane job is placed: it joins the tail of the queue of every lane of its set, and each lane whose queue was
empty takes it up, in ascending lane order (R57, R132; log 7). -/
def placeLaneJob (s : State) (n : SlotId) (j : Job) : State :=
  let lanes := lanesOf j.spec.lanes
  let heads := lanes.filter (fun i => (s.lane i).queue.isEmpty)
  let st : SlotState := if heads.isEmpty then .queued else .active
  let s1 := s.setSlot n (some { j with state := st, listRead := false })
  heads.foldl nextJob (lanes.foldl (joinQueue n) s1)

/-- Placement of the job of slot `n`; its ring's in intake is cleared (R132). -/
def place (s : State) (n : SlotId) : State :=
  match s.slot n with
  | none => s
  | some j =>
    let s1 := s.modRing j.ring (fun r => { r with inIntake := false })
    match j.spec.params.kind with
    | .barrier => placeBarrier s1 n j
    | .attach => placeLaneJob s1 n j
    | .detach => placeLaneJob s1 n j
    | .erase => placeLaneJob s1 n j
    | .program => placeLaneJob s1 n j
    | .verify => placeLaneJob s1 n j
    | .readback => placeLaneJob s1 n j
    | .protect => placeLaneJob s1 n j
    | .loadCredential => s1
    | .clearCredential => s1
    | .abort => s1

/-- The record becomes the ring's held entry; the engine is free (R130). -/
def holdEntry (s : State) (r : RingId) (j : JobSpec) (cause : Blocked) : State :=
  (s.modRing r (fun g => { g with held := some j, blocked := cause, inIntake := false })).setEngine .free

/-- The job is of a kind whose list is read after the claim (R131). -/
def JobSpec.hasList (j : JobSpec) : Bool :=
  match j.params.kind with
  | .erase => 0 < j.listCount
  | .program => true
  | .verify => true
  | .attach => false
  | .detach => false
  | .readback => false
  | .protect => false
  | .barrier => false
  | .loadCredential => false
  | .clearCredential => false
  | .abort => false

/-- A job as it is put into its slot (R130). -/
def newJob (r : RingId) (j : JobSpec) : Job where
  state := .intake
  ring := r
  spec := j
  list := []
  results := Vector.replicate 16 none
  final := none
  waitSet := []
  imageFailed := none
  abortMark := false
  listRead := j.hasList
  intakeEnd := none

/-- The claim of slot `n`: the job is put into it in INTAKE, with its reservations; the consumer index advances, a
held entry is cleared, and the engine is free (R130). The list read is issued, or the job is placed at once. -/
def claim (s : State) (r : RingId) (j : JobSpec) (n : SlotId) : State :=
  let s1 := s.setSlot n (some (newJob r j))
  let s2 := (s1.modRing r (fun g => { g.advance with held := none, blocked := .none })).setEngine .free
  if j.hasList then s2 else place s2 n

/-- A record of a slot kind is examined: the slot first, then the lanes (R130). -/
def examine (s : State) (r : RingId) (j : JobSpec) : State :=
  match freeSlotNumber s with
  | none => holdEntry s r j .slot
  | some n => if (lanesOf j.lanes).all (hasRoom s) then claim s r j n else holdEntry s r j .laneQueue

/-! ### The arbiter -/

/-- A ring is eligible (R125). -/
def Ring.eligible (r : Ring) : Bool :=
  r.pendingEntries != 0 && r.blocked == .none && !r.barrierPending && !r.inIntake

/-- The rings in the order in which the arbiter looks at them (R125). -/
def ringsAfter (last : RingId) : List RingId := (List.range 4).map (fun k => last + 1 + Fin.ofNat 4 k)

/-- The ring that the arbiter would choose (R125). -/
def nextRing (s : State) : Option RingId := (ringsAfter s.intake.arbiter).find? (fun r => (s.ring r).eligible)

/-- Ring `r` is chosen: its in intake is set and the pointer holds it; its held entry is taken up, or the record read
of its entry at the consumer index is issued (R125, R126). An address past 2^64 wraps (DESIGN CHOICE, log 34). -/
def chooseRing (s : State) (r : RingId) : State :=
  let g := s.ring r
  let s1 := s.modRing r (fun g => { g with inIntake := true })
  let s2 : State := { s1 with intake := { s1.intake with arbiter := r } }
  match g.held with
  | some j => examine s2 r j
  | none => s2.setEngine (.recordRead r (g.base + BitVec.ofNat 64 (64 * g.consumer)))

/-- INTAKE_ARBITER_CHOICE: a choice is made only in RUNNING, with the engine free and a ring eligible (R125). -/
def execIntakeArbiterChoice (s : State) : Result :=
  if s.ctl.device = .running && s.intake.engine == .free then
    match nextRing s with
    | some r => .next (chooseRing s r)
    | none => .next s
  else .next s

/-! ### Credential jobs -/

/-- An entry as CLEAR_CREDENTIAL leaves it (R99). -/
def Credential.cleared (c : Credential) : Credential :=
  { c with valid := false, cls := 0, mask := 0, length := 0, bytes := List.replicate 32 0 }

/-- CLEAR_CREDENTIAL: the entry, or all of them, cleared unless an entry concerned is pinned (R99). -/
def clearCredentials (s : State) (e : Option CredId) : State × Status :=
  match e with
  | some c => if (s.cred c).pins = 0 then (s.modCred c Credential.cleared, .done) else (s, .credentialBusy)
  | none =>
    if allCreds.all (fun c => (s.cred c).pins == 0) then
      ({ s with creds := s.creds.map Credential.cleared }, .done)
    else (s, .credentialBusy)

/-- An entry as LOAD_CREDENTIAL writes it: overwritten whole, bytes beyond the length 0 (R98). -/
def Credential.load (c : Credential) (cls mask : BitVec 16) (length : Nat) (bytes : List Byte) : Credential :=
  { c with valid := true, cls := cls, mask := mask, length := length,
           bytes := bytes ++ List.replicate (32 - bytes.length) 0 }

/-! ### The abort lookup -/

/-- The slot of the job that came from a ring and carries a tag (R145). -/
def findTag (s : State) (r : RingId) (tag : BitVec 16) : Option SlotId :=
  allSlots.find? (fun n =>
    match s.slot n with
    | none => false
    | some j => j.ring == r && j.spec.tag == tag)

/-- The job can still be aborted: its status is not fixed, and it does not wait to post a completion from INTAKE
(R145). -/
def Job.abortable (j : Job) : Bool :=
  match j.state with
  | .retiring => false
  | .intake => j.listRead
  | .queued => true
  | .active => true
  | .waiting => true

/-- An ATTACH aborted before identity: MODE, RESET and POWER as R152 has them, its timers stopped, the first IDENTIFY
dropped, the lane OFF with outcome ABORTED. TXD falls idle (log 11). -/
def abortBeforeIdentity (s : State) (i : LaneId) : State :=
  let s1 := releasePin s i
  let s2 := s1.modLane i (fun l => { l.enterOff with tx := .idle })
  finishLane (switchOff s2 i) i (Verdict.plain .aborted)

/-- A found ACTIVE or QUEUED job is dealt with on one lane, by where the lane stands with it (R148, R150 to R153). -/
def abortLane (n : SlotId) (s : State) (i : LaneId) : State :=
  match s.slot n with
  | none => s
  | some j =>
    if (j.results[i.val]).isSome then s
    else if (s.lane i).queue.head? ≠ some n then removeJob s i n j (Verdict.plain .aborted)
    else if j.spec.params.kind = .attach && (s.lane i).identity.isNone then abortBeforeIdentity s i
    else if (s.lane i).outstanding.isSome then s
    else finishLane s i (Verdict.plain .aborted)

/-- The effect of the lookup on the job it finds (R147 to R150); lanes in ascending order (log 7). -/
def abortJob (s : State) (n : SlotId) (j : Job) : State :=
  match j.state with
  | .retiring => s
  | .intake => s.setSlot n (some { j with abortMark := true })
  | .waiting => retireBarrier s n .aborted
  | .queued => (lanesOf j.spec.lanes).foldl (abortLane n) s
  | .active => (lanesOf j.spec.lanes).foldl (abortLane n) (s.setSlot n (some { j with abortMark := true }))

/-- An ABORT is carried out: its own completion is offered first, and then the found job is dealt with (R145,
R146). -/
def abortLookup (s : State) (own : IntakeCompletion) (r : RingId) (tag : BitVec 16) : State :=
  match findTag s r tag with
  | none => postIntake s { own with status := .notFound }
  | some n =>
    match s.slot n with
    | none => postIntake s { own with status := .notFound }
    | some j =>
      if j.abortable then abortJob (postIntake s { own with status := .done }) n j
      else postIntake s { own with status := .notFound }

/-! ### Records -/

/-- The completion of an entry of ring `r` with this record's tag and IRQ_NOW flag. -/
def recordCompletion (r : RingId) (bytes : List Byte) (st : Status) (d : Detail) : IntakeCompletion :=
  { ring := r, tag := recordTag bytes, status := st, detail := d, irqNow := recordIrqNow bytes }

/-- A job record that has been read good: field validation, the tag check, and then the record's kind (R127, R128,
R129, R130). -/
def takeRecord (s : State) (r : RingId) (bytes : List Byte) : State :=
  match validate bytes with
  | .error d => postIntake s (recordCompletion r bytes .invalid d)
  | .ok j =>
    if tagHeld s r j.tag then postIntake s (recordCompletion r bytes .dupTag .none)
    else match j.params with
      | .abort ring tag => abortLookup s (recordCompletion r bytes .done .none) ring tag
      | .clearCredential e =>
        let p := clearCredentials s e
        postIntake p.1 (recordCompletion r bytes p.2 .none)
      | .loadCredential _ _ _ _ => s.setEngine (.credentialRead r j)
      | .attach _ => examine s r j
      | .detach _ => examine s r j
      | .erase => examine s r j
      | .program => examine s r j
      | .verify => examine s r j
      | .readback _ _ _ _ => examine s r j
      | .protect _ => examine s r j
      | .barrier => examine s r j

/-- RECORD_READ_END (R126): a failed read puts the device into FAULT with cause RING_READ; a read that ends in FAULT
is discarded (R134). -/
def execRecordReadEnd (e : Epoch) (r : HostRead) (s : State) : Result :=
  match e, s.intake.engine with
  | .live, .recordRead ring _ =>
    if s.ctl.device = .fault then .next s
    else match r with
      | .failed => .next (withMessage s (deviceFault s .ringRead))
      | .good bytes => if bytes.length = 64 then .next (takeRecord s ring bytes) else .next s
  | _, _ => .next s

/-- The completion of a credential job (R98). -/
def credentialCompletion (r : RingId) (j : JobSpec) (st : Status) : IntakeCompletion :=
  { ring := r, tag := j.tag, status := st, detail := .none, irqNow := j.irqNow }

/-- LOAD_CREDENTIAL_READ_END (R98); in FAULT the entry is unchanged and nothing is posted (R134). -/
def execLoadCredentialReadEnd (e : Epoch) (r : HostRead) (s : State) : Result :=
  match e, s.intake.engine with
  | .live, .credentialRead ring j =>
    match j.params with
    | .loadCredential c len cls mask =>
      if s.ctl.device = .fault then .next s
      else match r with
        | .failed => .next (postIntake s (credentialCompletion ring j .hostError))
        | .good bytes =>
          if bytes.length ≠ len then .next s
          else if (s.cred c).pins = 0 then
            .next (postIntake (s.modCred c (fun x => x.load cls mask len bytes)) (credentialCompletion ring j .done))
          else .next (postIntake s (credentialCompletion ring j .credentialBusy))
    | _ => .next s
  | _, _ => .next s

/-! ### Lists -/

/-- A job whose list read ends with its abort mark set: RETIRING with status ABORTED and empty masks, its
reservations released, its ring's in intake cleared (R131, R147). -/
def retireAborted (s : State) (n : SlotId) (j : Job) : State :=
  let final : FinalStatus := { status := .aborted, okMask := 0, failMask := 0 }
  let s1 := s.setSlot n (some { j with state := .retiring, listRead := false, final := some final })
  let s2 := (s1.modRing j.ring (fun r => { r with inIntake := false })).unblockLanes j.spec.lanes
  offerIfClear s2 n

/-- A job completed from INTAKE: it posts its completion once the holding queue has room (R131). -/
def completeFromIntake (s : State) (n : SlotId) (j : Job) (st : Status) (d : Detail) : State :=
  offer (s.setSlot n (some { j with listRead := false, intakeEnd := some (st, d) })) (.intakeJob n)

/-- LIST_READ_END (R131): the abort mark first, then the read's result and the list checks, and then placement
(R132); in FAULT the end is discarded (R134). -/
def execListReadEnd (e : Epoch) (n : SlotId) (r : HostRead) (s : State) : Result :=
  match e, s.slot n with
  | .live, some j =>
    if s.ctl.device = .fault || j.state != .intake || !j.listRead then .next s
    else match r with
      | .failed => if j.abortMark then .next (retireAborted s n j) else .next (completeFromIntake s n j .hostError .none)
      | .good bytes =>
        if bytes.length ≠ listEntryBytes * j.spec.listCount then .next s
        else if j.abortMark then .next (retireAborted s n j)
        else
          let list := parseList j.spec.listCount bytes
          match listFault (j.spec.params.kind == .verify) 0 list with
          | some d => .next (completeFromIntake s n j .invalid d)
          | none => .next (place (s.setSlot n (some { j with list := list, listRead := false })) n)
  | _, _ => .next s

end Sys2Proof.Machine
end

