-- ==== Sys2Proof/Machine/Device.lean ====
section
/-! DEFINITION. Device Control's commands: resets, CONTROL, the register writes, the configuration block and the
drain (R123, R136, R143, R156 to R166, R169). -/

namespace Sys2Proof.Machine

/-! ### Resets -/

/-- A lane at its reset values: MODE deasserted, RESET asserted and POWER off, in this order (R26, R51). A readback
host write in flight is not stopped, and stays with the lane until its end, to be discarded (R69; DESIGN CHOICE, log
39). -/
def Lane.returned (l : Lane) : Lane :=
  { Lane.reset with
    outputs := (((l.driveMode false).driveReset true).drivePower false).outputs
    readback := l.readback }

/-- What both resets leave: every block at its reset values, with CONFIG_ADDR as given. Staging reads in flight are
not stopped and go on being counted (R95), nor is a lane's readback write stopped (R69; DESIGN CHOICE, log 39); no
interrupt message is sent (R143, R164). -/
def resetTo (s : State) (addr : BitVec 64) : State :=
  { State.reset with
    ctl := { Control.reset with configAddr := addr, messages := s.ctl.messages }
    lanes := s.lanes.map Lane.returned
    pool := { Pool.reset with stale := s.pool.stale + s.pool.inFlight }
    pending := s.pending }

/-- POWER_ON_RESET: CONFIG_ADDR becomes 0 (R164). -/
def execPowerOnReset (s : State) : Result := .next (resetTo s 0)

/-- SOFT_RESET: CONFIG_ADDR is kept (R164). -/
def execSoftReset (s : State) : Result := .next (resetTo s s.ctl.configAddr)

/-! ### CONTROL -/

/-- ENABLE in OFF or HALTED puts the device in ENABLING and issues the configuration block read at CONFIG_ADDR; in
every other state it is ignored (R157, R158). -/
def enableCommand (s : State) : State :=
  match s.ctl.device with
  | .off => { s with ctl := { s.ctl with device := .enabling, configRead := some s.ctl.configAddr } }
  | .halted => { s with ctl := { s.ctl with device := .enabling, configRead := some s.ctl.configAddr } }
  | .enabling => s
  | .running => s
  | .quiescing => s
  | .fault => s

/-- A held entry dropped at HALT: the record is forgotten, the blocked cause returns to none, and the entry stays
pending (R134). -/
def Ring.dropHeld (r : Ring) : Ring :=
  match r.held with
  | none => r
  | some _ => { r with held := none, blocked := .none }

/-- The device enters QUIESCING, and HALTED in the same happening if the drain is already complete (R134, R161). -/
def enterQuiescing (s : State) : State :=
  drainIfComplete
    { s with ctl := { s.ctl with device := .quiescing },
             intake := { s.intake with rings := s.intake.rings.map Ring.dropHeld } }

/-- HALT: QUIESCING from RUNNING, kept during ENABLING, ignored in every other state (R157, R158, R161). -/
def haltCommand (s : State) : State :=
  match s.ctl.device with
  | .running => enterQuiescing s
  | .enabling => { s with ctl := { s.ctl with keptHalt := true } }
  | .off => s
  | .quiescing => s
  | .halted => s
  | .fault => s

/-- ENABLE, and after it the HALT of the same write if it asks for one (R157). -/
def execEnable (withHalt : Bool) (s : State) : Result :=
  .next (withMessage s (if withHalt then haltCommand (enableCommand s) else enableCommand s))

/-- HALT (R157, R161). -/
def execHalt (s : State) : Result := .next (withMessage s (haltCommand s))

/-- DRAIN_COMPLETE (R161; log 5). -/
def execDrainComplete (s : State) : Result := .next (withMessage s (drainIfComplete s))

/-! ### SUBMIT -/

/-- A SUBMIT checked against the geometry in force: a good one sets the ring's producer index, a bad one
SUBMIT_ERROR (R123). -/
def applySubmit (s : State) (ring index : Nat) : State :=
  match finOf 4 ring with
  | none => { s with ctl := { s.ctl with submitError := true } }
  | some r =>
    if index < (s.ring r).size then s.modRing r (fun g => { g with producer := index })
    else { s with ctl := { s.ctl with submitError := true } }

/-- SUBMIT_WRITE: ring in bits 16-23, producer index in bits 0-15; kept unchecked during ENABLING (R123, R169). -/
def execSubmitWrite (value : BitVec 32) (s : State) : Result :=
  let ring := (value.extractLsb' 16 8).toNat
  let index := value.extractLsb' 0 16
  match s.ctl.device, finOf 4 ring with
  | .enabling, some r => .next { s with ctl := { s.ctl with keptSubmit := s.ctl.keptSubmit.set r.val (some index) } }
  | .enabling, none => .next { s with ctl := { s.ctl with submitError := true } }
  | .off, _ => .next (applySubmit s ring index.toNat)
  | .running, _ => .next (applySubmit s ring index.toNat)
  | .quiescing, _ => .next (applySubmit s ring index.toNat)
  | .halted, _ => .next (applySubmit s ring index.toNat)
  | .fault, _ => .next (applySubmit s ring index.toNat)

/-! ### CQ_HEAD, IRQ, STATUS, CONFIG_ADDR -/

/-- The completion ring after a host head of `h`, if the host may name it: a position from the host head forward to
the tail; on a full ring the tail alone, which releases everything (R136; log 8). -/
def CompletionRing.release (r : CompletionRing) (h : Nat) : Option CompletionRing :=
  let forward := (h + r.size - r.head) % r.size
  if r.size ≤ h then none
  else if h = r.tail then some { r with head := h, unreleased := 0 }
  else if r.unreleased < r.size && forward < r.unreleased then
    some { r with head := h, unreleased := r.unreleased - forward }
  else none

/-- CQ_HEAD_WRITE: releases entries, or is dropped with HEAD_ERROR, in every device state (R136). -/
def execCqHeadWrite (value : BitVec 32) (s : State) : Result :=
  match s.writer.ring.release (value.extractLsb' 0 16).toNat with
  | some r => .next { s with writer := { s.writer with ring := r } }
  | none => .next { s with ctl := { s.ctl with headError := true } }

/-- IRQ_WRITE: each pending bit written as 1 is cleared (R143). -/
def execIrqWrite (value : BitVec 32) (s : State) : Result :=
  let k : IrqBits :=
    { cq := s.ctl.irq.cq && !value.getLsbD 0,
      fault := s.ctl.irq.fault && !value.getLsbD 1,
      halt := s.ctl.irq.halt && !value.getLsbD 2 }
  .next { s with ctl := { s.ctl with irq := k } }

/-- STATUS_WRITE: SUBMIT_ERROR and HEAD_ERROR are cleared where written as 1 (R166). -/
def execStatusWrite (value : BitVec 32) (s : State) : Result :=
  let k : Control :=
    { s.ctl with
      submitError := s.ctl.submitError && !value.getLsbD 8, headError := s.ctl.headError && !value.getLsbD 9 }
  .next { s with ctl := k }

/-- A half of CONFIG_ADDR replaced, the other kept (R165). -/
def setHalf (addr : BitVec 64) (half : AddrHalf) (value : BitVec 32) : BitVec 64 :=
  match half with
  | .low => addr.extractLsb' 32 32 ++ value
  | .high => value ++ addr.extractLsb' 0 32

/-- CONFIG_ADDR_WRITE: stored in every device state; a read in flight keeps its address (R158, R165). -/
def execConfigAddrWrite (half : AddrHalf) (value : BitVec 32) (s : State) : Result :=
  .next { s with ctl := { s.ctl with configAddr := setHalf s.ctl.configAddr half value } }

/-- REGISTER_WRITE_IGNORED (R165, R169). -/
def execRegisterWriteIgnored (_offset _bits : Nat) (_value : BitVec 32) (s : State) : Result := .next s

/-! ### The configuration block -/

/-- A ring record when a configuration block is accepted (R122). -/
def Ring.configured (base : BitVec 64) (size : Nat) : Ring := { Ring.reset with base := base, size := size }

/-- The kept SUBMIT of a ring is checked against the new geometry and applied (R123). -/
def applyKept (kept : Vector (Option (BitVec 16)) 4) (s : State) (r : RingId) : State :=
  match kept[r.val] with
  | none => s
  | some index => applySubmit s r.val index.toNat

/-- The state once the block's values are in force and the device is RUNNING, before kept writes are applied (R117,
R122, R125, R135, R141, R142, R160). -/
def configured (s : State) (c : ConfigBlock) : State :=
  { s with
    ctl :=
      { s.ctl with
        device := .running, cause := .none, inForce := some c.settings, configRead := none,
        keptSubmit := Vector.replicate 4 none, keptHalt := false }
    intake :=
      { s.intake with
        rings := Vector.ofFn (fun r => Ring.configured c.ringBases[r] c.ringSizes[r]), arbiter := 3 }
    supply := { s.supply with timer := some c.settings.supervisePeriod }
    writer :=
      { s.writer with
        ring := { base := c.cqBase, size := c.cqSize, tail := 0, head := 0, unreleased := 0, phase := true },
        txn := none, count := 0, delayTimer := none } }

/-- The block is accepted: its values come into force, the kept SUBMITs are applied in ring order, and a kept HALT
leads on to QUIESCING in the same happening (R160). -/
def configAccepted (s : State) (c : ConfigBlock) : State :=
  let s1 := allRings.foldl (applyKept s.ctl.keptSubmit) (configured s c)
  if s.ctl.keptHalt then enterQuiescing s1 else s1

/-- The block is refused: OFF with cause CONFIG_INVALID, what was kept is discarded, and a record's transaction goes
on from where it stood (R141, R159). -/
def configRefused (s : State) : State :=
  beginCompletion
    { s with ctl :=
      { s.ctl with
        device := .off, cause := .configInvalid, configRead := none, keptSubmit := Vector.replicate 4 none,
        keptHalt := false } }

/-- CONFIG_READ_END (R158): a failed read faults the device with CONFIG_READ; a good block is accepted or refused. -/
def execConfigReadEnd (e : Epoch) (r : HostRead) (s : State) : Result :=
  match e, s.ctl.device, s.ctl.configRead with
  | .live, .enabling, some _ =>
    match r with
    | .failed => .next (withMessage s (deviceFault s .configRead))
    | .good bytes =>
      if bytes.length ≠ 64 then .next s
      else if (parseConfig bytes).accepted then .next (withMessage s (configAccepted s (parseConfig bytes)))
      else .next (configRefused s)
  | _, _, _ => .next s

end Sys2Proof.Machine
end

