-- ==== Sys2Proof/Machine/Dispatch.lean ====
section
/-! DEFINITION. One arm for each command: each calls its meaning. -/

namespace Sys2Proof.Machine

/-- The meaning of a command on everything but the queue. -/
def exec (i : Instr) (s : State) : Host.Outcome State Fault Refusal :=
  match i with
  | .powerOnReset => Sys2Proof.Machine.execPowerOnReset s
  | .softReset => Sys2Proof.Machine.execSoftReset s
  | .enable w => Sys2Proof.Machine.execEnable w s
  | .halt => Sys2Proof.Machine.execHalt s
  | .submitWrite v => Sys2Proof.Machine.execSubmitWrite v s
  | .cqHeadWrite v => Sys2Proof.Machine.execCqHeadWrite v s
  | .irqWrite v => Sys2Proof.Machine.execIrqWrite v s
  | .statusWrite v => Sys2Proof.Machine.execStatusWrite v s
  | .configAddrWrite h v => Sys2Proof.Machine.execConfigAddrWrite h v s
  | .registerWriteIgnored o b v => Sys2Proof.Machine.execRegisterWriteIgnored o b v s
  | .configReadEnd e r => Sys2Proof.Machine.execConfigReadEnd e r s
  | .drainComplete => Sys2Proof.Machine.execDrainComplete s
  | .intakeArbiterChoice => Sys2Proof.Machine.execIntakeArbiterChoice s
  | .recordReadEnd e r => Sys2Proof.Machine.execRecordReadEnd e r s
  | .listReadEnd e n r => Sys2Proof.Machine.execListReadEnd e n r s
  | .loadCredentialReadEnd e r => Sys2Proof.Machine.execLoadCredentialReadEnd e r s
  | .holdingQueueEntry => Sys2Proof.Machine.execHoldingQueueEntry s
  | .completionTransactionStart => Sys2Proof.Machine.execCompletionTransactionStart s
  | .resultRecordWriteEnd e lane r => Sys2Proof.Machine.execResultRecordWriteEnd e lane r s
  | .completionRecordWriteEnd e r => Sys2Proof.Machine.execCompletionRecordWriteEnd e r s
  | .coalescingDelayExpiry => Sys2Proof.Machine.execCoalescingDelayExpiry s
  | .stagingReadIssue => Sys2Proof.Machine.execStagingReadIssue s
  | .stagingReadEnd e b r => Sys2Proof.Machine.execStagingReadEnd e b r s
  | .chunkSend lane => Sys2Proof.Machine.execChunkSend lane s
  | .readbackWriteEnd e lane r => Sys2Proof.Machine.execReadbackWriteEnd e lane r s
  | .frameSent lane => Sys2Proof.Machine.execFrameSent lane s
  | .responseTimeout lane => Sys2Proof.Machine.execResponseTimeout lane s
  | .frameReceived lane c => Sys2Proof.Machine.execFrameReceived lane c s
  | .frameSpoiled lane c b => Sys2Proof.Machine.execFrameSpoiled lane c b s
  | .frameGapTimeout lane => Sys2Proof.Machine.execFrameGapTimeout lane s
  | .trainingPatternSent lane => Sys2Proof.Machine.execTrainingPatternSent lane s
  | .trainingCharacterReceived lane c => Sys2Proof.Machine.execTrainingCharacterReceived lane c s
  | .trainingTimeout lane => Sys2Proof.Machine.execTrainingTimeout lane s
  | .powerSettleExpiry lane => Sys2Proof.Machine.execPowerSettleExpiry lane s
  | .checkWaitExpiry lane => Sys2Proof.Machine.execCheckWaitExpiry lane s
  | .resetPulseExpiry lane => Sys2Proof.Machine.execResetPulseExpiry lane s
  | .bootSettleExpiry lane => Sys2Proof.Machine.execBootSettleExpiry lane s
  | .rateGapExpiry lane => Sys2Proof.Machine.execRateGapExpiry lane s
  | .superviseTimerExpiry => Sys2Proof.Machine.execSuperviseTimerExpiry s
  | .conversionStart => Sys2Proof.Machine.execConversionStart s
  | .conversionEnd m => Sys2Proof.Machine.execConversionEnd m s
  | .overcurrentTrip lane => Sys2Proof.Machine.execOvercurrentTrip lane s
  | .frameCharacterReceived lane c => Sys2Proof.Machine.execFrameCharacterReceived lane c s

end Sys2Proof.Machine
end

