-- ==== Sys2Proof/Machine/Loader.lean ====
section
/-! DEFINITION. The contract of the target loader (R14 to R19), which the PL16 relies on: what a loader does with the
frames that it receives. The loader stands outside the PL16, and no command of the PL16 reads these definitions
(log 25). -/

namespace Sys2Proof.Machine

/-- A request as the loader takes it: seq, kind byte and payload. -/
structure LoaderRequest where
  seq : Byte
  kind : Byte
  payload : List Byte
  deriving DecidableEq, Repr

/-- A response frame's kind byte and payload. -/
structure LoaderAnswer where
  kind : Byte
  payload : List Byte
  deriving DecidableEq, Repr

/-- What the loader and its target hold (R13, R14, R17, R18, R19). -/
structure Loader where
  deviceClass : BitVec 16
  loaderVersion : Byte
  flashBase : Nat
  sectorSize : Nat
  granule : Nat
  maxWrite : Nat
  rates : BitVec 8
  flash : List Byte
  level : Nat
  credential : List Byte
  required : Bool
  attempts : Nat
  unlocked : Bool
  executing : Option LoaderRequest
  /-- the seq of the last request completed, with the response sent for it -/
  last : Option (Byte × LoaderAnswer)
  rate : RateCode
  /-- the rate at which it trained -/
  trainedRate : RateCode
  /-- its program runs, after a START -/
  started : Bool
  deriving DecidableEq, Repr

/-- ACK with a payload. -/
def ackWith (payload : List Byte) : LoaderAnswer := { kind := 0x81, payload := payload }

/-- NAK with a reason. -/
def nakWith (r : NakReason) : LoaderAnswer := { kind := nakCode, payload := [r.code] }

/-- WAIT with an estimate in ms. -/
def waitWith (estimate : Nat) : LoaderAnswer := { kind := waitCode, payload := beBytes 2 estimate }

/-- The request kind that a kind byte names. -/
def ReqKind.ofCode (b : Byte) : Option ReqKind :=
  [ReqKind.identify, .unlock, .erase, .write, .read, .sum, .protect, .setRate, .start].find? (fun k => k.code == b)

/-- A target that leaves reset: both seq values empty, the unlocked flag clear, at the rate that it trains at
(R14, R18). -/
def Loader.leaveReset (ld : Loader) (rate : RateCode) : Loader :=
  { ld with executing := none, last := none, unlocked := false, rate := rate, trainedRate := rate, started := false }

/-- The address just past flash. -/
def Loader.flashEnd (ld : Loader) : Nat := ld.flashBase + ld.flash.length

/-- Some byte of a range lies outside flash. -/
def Loader.outside (ld : Loader) (addr len : Nat) : Bool := addr < ld.flashBase || ld.flashEnd < addr + len

/-- The check LOCKED (R18). -/
def Loader.lockedOut (ld : Loader) (k : ReqKind) : Bool :=
  ld.required && !ld.unlocked && k != .identify && k != .unlock && k != .setRate

/-- The check PROTECTED by the level (R17). -/
def Loader.levelRefuses (ld : Loader) (k : ReqKind) (payload : List Byte) : Bool :=
  match ld.level with
  | 0 => false
  | 1 =>
    match k with
    | .read => true
    | .sum => true
    | .write => true
    | .erase => beField payload 4 1 != 0
    | .protect => beField payload 0 1 < 1
    | .identify => false
    | .unlock => false
    | .setRate => false
    | .start => false
  | _ => k != .identify && k != .setRate && k != .start

/-- The check RANGE (R15). -/
def Loader.outOfRange (ld : Loader) (k : ReqKind) (payload : List Byte) : Bool :=
  let addr := beField payload 0 4
  match k with
  | .erase => beField payload 4 1 != 0 && ld.outside addr (beField payload 4 1 * ld.sectorSize)
  | .write => ld.outside addr (payload.length - 4)
  | .read => beField payload 4 2 == 0 || 128 < beField payload 4 2 || ld.outside addr (beField payload 4 2)
  | .sum => beField payload 4 4 == 0 || ld.outside addr (beField payload 4 4)
  | .unlock => payload.length < 4 || 32 < payload.length
  | .protect => beField payload 0 1 != 1 && beField payload 0 1 != 2
  | .setRate => false
  | .identify => false
  | .start => false

/-- The check ALIGN (R15). -/
def Loader.misaligned (ld : Loader) (k : ReqKind) (payload : List Byte) : Bool :=
  let addr := beField payload 0 4
  match k with
  | .erase => beField payload 4 1 != 0 && (addr - ld.flashBase) % ld.sectorSize != 0
  | .write => addr % ld.granule != 0 || (payload.length - 4) % ld.granule != 0
  | .read => false
  | .sum => false
  | .unlock => false
  | .protect => false
  | .setRate => false
  | .identify => false
  | .start => false

/-- The first check that a new request fails, in the order of R15. -/
def Loader.refusal (ld : Loader) (q : LoaderRequest) : Option NakReason :=
  match ReqKind.ofCode q.kind with
  | none => some .kind
  | some k =>
    if ld.lockedOut k then some .locked
    else if ld.levelRefuses k q.payload then some .guarded
    else if ld.outOfRange k q.payload then some .range
    else if ld.misaligned k q.payload then some .align
    else none

/-- The loader's identity record in a HELLO's 24 bytes (R13, 11.1). -/
def Loader.hello (ld : Loader) : List Byte :=
  beBytes 2 ld.deviceClass.toNat ++ [ld.loaderVersion, BitVec.ofNat 8 ld.level] ++ beBytes 4 ld.flashBase
    ++ beBytes 4 ld.flash.length ++ beBytes 4 ld.sectorSize
    ++ [BitVec.ofNat 8 ld.granule, BitVec.ofNat 8 ld.maxWrite, BitVec.ofNat 8 (bitAt ld.required 0),
      BitVec.ofNat 8 ld.attempts, ld.rates] ++ [0, 0, 0]

/-- Flash with a range replaced. -/
def Loader.put (ld : Loader) (addr : Nat) (data : List Byte) : List Byte :=
  let at' := addr - ld.flashBase
  ld.flash.take at' ++ data ++ ld.flash.drop (at' + data.length)

/-- An UNLOCK carried out (R18). -/
def Loader.unlock (ld : Loader) (cred : List Byte) : Loader × LoaderAnswer :=
  if ld.attempts = 0 then (ld, nakWith .locked)
  else if !ld.required || ld.unlocked then (ld, ackWith [])
  else if cred = ld.credential then ({ ld with unlocked := true }, ackWith [])
  else ({ ld with attempts := ld.attempts - 1 }, nakWith .auth)

/-- A request that passes the checks, carried out (R15, R17 to R19). `flashAfter` is the flash that a failed
programming or erasing leaves, or none where it succeeds. -/
def Loader.carryOut (ld : Loader) (k : ReqKind) (payload : List Byte) (flashAfter : Option (List Byte)) :
    Loader × LoaderAnswer :=
  let addr := beField payload 0 4
  match k with
  | .identify => (ld, { kind := 0x83, payload := ld.hello })
  | .unlock => ld.unlock payload
  | .erase =>
    match flashAfter with
    | some f => ({ ld with flash := f }, nakWith .erase)
    | none =>
      let count := beField payload 4 1
      let from' := if count = 0 then ld.flashBase else addr
      let len := if count = 0 then ld.flash.length else count * ld.sectorSize
      let data := (List.range len).map (fun o => Config.erasedByte (from' + o))
      let level := if count = 0 then 0 else ld.level
      ({ ld with flash := ld.put from' data, level := level }, ackWith [BitVec.ofNat 8 level])
  | .write =>
    if ld.maxWrite < payload.length - 4 then (ld, nakWith .program)
    else match flashAfter with
      | some f => ({ ld with flash := f }, nakWith .program)
      | none => ({ ld with flash := ld.put addr (payload.drop 4) }, ackWith [])
  | .read => (ld, { kind := 0x82, payload := slice ld.flash (addr - ld.flashBase) (beField payload 4 2) })
  | .sum =>
    (ld, ackWith (beBytes 4 (crc32 (slice ld.flash (addr - ld.flashBase) (beField payload 4 4))).toNat))
  | .protect => ({ ld with level := max ld.level (beField payload 0 1) }, ackWith [])
  | .setRate =>
    match finOf 8 (beField payload 0 1) with
    | none => (ld, nakWith .rate)
    | some r => if ld.rates.getLsbD r.val then ({ ld with rate := r }, ackWith []) else (ld, nakWith .rate)
  | .start => ({ ld with started := true }, ackWith [])

/-- The loader finishes the request that it executes: the response is sent and kept with its seq (R14). -/
def Loader.finish (ld : Loader) (flashAfter : Option (List Byte)) : Loader × Option LoaderAnswer :=
  match ld.executing with
  | none => (ld, none)
  | some q =>
    let done :=
      match ld.refusal q, ReqKind.ofCode q.kind with
      | some r, _ => (ld, nakWith r)
      | none, some k => ld.carryOut k q.payload flashAfter
      | none, none => (ld, nakWith .kind)
    ({ done.1 with executing := none, last := some (q.seq, done.2) }, some done.2)

/-- A good frame: a duplicate of the request in execution is answered WAIT, one of the last request completed gets
the same response again, and any other is new and taken into execution (R14). -/
def Loader.receive (ld : Loader) (q : LoaderRequest) (estimate : Nat) : Loader × Option LoaderAnswer :=
  if ld.started then (ld, none)
  else if ld.executing.map LoaderRequest.seq = some q.seq then (ld, some (waitWith estimate))
  else match ld.last with
    | some (seq, answer) => if seq = q.seq then (ld, some answer) else ({ ld with executing := some q }, none)
    | none => ({ ld with executing := some q }, none)

/-- A spoiled frame: NAK FRAME where the seq was read before the spoiling, and nothing where not (R14). -/
def Loader.spoiled (seq : Option Byte) : Option (Byte × LoaderAnswer) := seq.map (fun q => (q, nakWith .frame))

/-- 500 ms without a good frame at a rate that it switched to: back to the rate at which it trained (R19). -/
def Loader.fallBack (ld : Loader) : Loader := { ld with rate := ld.trainedRate }

end Sys2Proof.Machine
end

