-- ==== Sys2Proof/Safety.lean ====
section
/-! DEFINITION. What the spec promises of every state: the conditions that its rules say always hold, in the words
of the model's state. -/

namespace Sys2Proof.Machine

/-! ### Words for statements -/

/-- The drain conditions of R161: every slot FREE, the holding queue empty, no entry in the intake engine's hand. -/
def State.drained (s : State) : Prop :=
  (∀ n : SlotId, s.slot n = none) ∧ s.writer.holding = [] ∧ s.intake.engine = .free

/-- The outcome recorded for lane `i` in the job of slot `n`, if there is one (R56). -/
def State.outcomeOf (s : State) (n : SlotId) (i : LaneId) : Option LaneOutcome :=
  match s.slot n with
  | none => none
  | some j => j.outcome i

/-- The result content recorded for lane `i` in the job of slot `n` (R75). -/
def State.resultOf (s : State) (n : SlotId) (i : LaneId) : Option LaneResult :=
  match s.slot n with
  | none => none
  | some j => j.results[i.val]

/-- The lane that a command of the Loader Link, of a lane's phases or of its supply works on. -/
def laneOf (c : Instr) : Option LaneId :=
  match c with
  | .chunkSend i => some i
  | .readbackWriteEnd _ i _ => some i
  | .frameSent i => some i
  | .responseTimeout i => some i
  | .frameReceived i _ => some i
  | .frameSpoiled i _ _ => some i
  | .frameGapTimeout i => some i
  | .trainingPatternSent i => some i
  | .trainingCharacterReceived i _ => some i
  | .trainingTimeout i => some i
  | .powerSettleExpiry i => some i
  | .checkWaitExpiry i => some i
  | .resetPulseExpiry i => some i
  | .bootSettleExpiry i => some i
  | .rateGapExpiry i => some i
  | .overcurrentTrip i => some i
  | .frameCharacterReceived i _ => some i
  | .powerOnReset => none
  | .softReset => none
  | .enable _ => none
  | .halt => none
  | .submitWrite _ => none
  | .cqHeadWrite _ => none
  | .irqWrite _ => none
  | .statusWrite _ => none
  | .configAddrWrite _ _ => none
  | .registerWriteIgnored _ _ _ => none
  | .configReadEnd _ _ => none
  | .drainComplete => none
  | .intakeArbiterChoice => none
  | .recordReadEnd _ _ => none
  | .listReadEnd _ _ _ => none
  | .loadCredentialReadEnd _ _ => none
  | .holdingQueueEntry => none
  | .completionTransactionStart => none
  | .resultRecordWriteEnd _ _ _ => none
  | .completionRecordWriteEnd _ _ => none
  | .coalescingDelayExpiry => none
  | .stagingReadIssue => none
  | .stagingReadEnd _ _ _ => none
  | .superviseTimerExpiry => none
  | .conversionStart => none
  | .conversionEnd _ => none

/-- A request of this lane is outstanding for a job that is its whole queue, whose outcome on the lane is still open,
whose abort mark is clear and which is not image-failed, and the lane's receiver takes frames. No readback host write is
in flight beside the request (R69). -/
def State.working (s : State) (i : LaneId) (n : SlotId) (j : Job) (q : Request) : Prop :=
  (s.lane i).outstanding = some q ∧ (s.lane i).queue = [n] ∧ s.slot n = some j ∧ j.results[i.val] = none
    ∧ j.abortMark = false ∧ j.imageFailed = none ∧ (s.lane i).receiving = true ∧ (s.lane i).readback = none

/-- A request of this lane is outstanding for a job that is its whole queue and whose outcome on the lane is still open,
and the lane's receiver takes frames; the job may be marked as aborted or image-failed. -/
def State.engaged (s : State) (i : LaneId) (n : SlotId) (j : Job) (q : Request) : Prop :=
  (s.lane i).outstanding = some q ∧ (s.lane i).queue = [n] ∧ s.slot n = some j ∧ j.results[i.val] = none
    ∧ (s.lane i).receiving = true

/-- Lane `l` once a frame has answered its outstanding request: nothing outstanding, READY, the receiver outside a
frame, and a frame of the request that is still going out on TXD its own no longer (R9, R25). -/
def Lane.answered (l : Lane) : Lane :=
  { l with rx := none, outstanding := none, state := .ready, tx := l.tx.orphaned }

/-- Lane `l`'s record of output changes once MODE, RESET and POWER, in this order, have been driven to the levels given,
each that is not `none`: an output that stands at its level already does not change (R26; log 40). -/
def Lane.outputsAfter (l : Lane) (mode reset power : Option Bool) : List OutputChange :=
  let change := fun (pin : OutputPin) (was : Bool) (driven : Option Bool) =>
    match driven with
    | none => []
    | some on => if was = on then [] else [({ pin := pin, on := on } : OutputChange)]
  l.outputs ++ change .mode l.modePin mode ++ change .reset l.resetPin reset ++ change .power l.power power

/-- Lane `l` once a job of slot `n` has come to an empty queue and been taken up: the job is its whole queue, the last
refusal is cleared, and the job-bound fields have their start values (R29, R30, R57). -/
def Lane.taking (l : Lane) (n : SlotId) : Lane :=
  { l with
    queue := [n], lastRefusal := none, step := .none, segment := 0, block := 0, offset := 0, erasedThrough := 0
    crc := 0xFFFFFFFF, sent := 0, retransmits := 0, linkErrors := 0, bytes := 0 }

/-- The characters complete a good frame with this seq, kind and payload on the lane (R6, R8). -/
def State.completes (s : State) (i : LaneId) (chars : List Byte) (seq kind : Byte) (payload : List Byte) : Prop :=
  chars ≠ [] ∧ rxStatus ((s.lane i).received chars) = .good seq kind payload

/-- Device Control after a failed host transfer is reported in a state other than FAULT (R162): the cause, the FAULT
bit of IRQ with its message if it is enabled and was clear, and what ENABLING kept discarded (R158). -/
def controlAfterFault (s : State) (c : Cause) : Control :=
  { s.ctl with
    device := .fault
    cause := c
    configRead := none
    keptHalt := false
    keptSubmit := Vector.replicate 4 none
    irq := { s.ctl.irq with fault := true }
    messages := s.ctl.messages + (if s.mask.fault && !s.ctl.irq.fault then 1 else 0) }

/-- A candidate that arrives now enters the holding queue at once: not FAULT, none waits, and fewer than 8 records are
held (R138). -/
def State.holdingOpen (s : State) : Prop :=
  s.ctl.device ≠ .fault ∧ s.writer.waitList = [] ∧ s.writer.holding.length < 8

/-- The state once the intake engine's completion has entered the holding queue: the record is at the back, the ring's
consumer index is one further and its in intake clear, and the engine is free (R133). -/
def State.withCompletion (s : State) (c : IntakeCompletion) : State :=
  { s with
    intake :=
      { s.intake with
        engine := .free
        rings := s.intake.rings.set c.ring.val
          { s.ring c.ring with
            consumer := ((s.ring c.ring).consumer + 1) % (s.ring c.ring).size, inIntake := false } }
    writer := { s.writer with holding := s.writer.holding ++ [.intake c] } }

/-- A completion at intake is posted, from `s` to `t`: it is in the holding queue, or, with the queue full or others
waiting, the engine keeps the entry in hand and stands at the back of the wait list (R133, R138). -/
def State.posts (s t : State) (c : IntakeCompletion) : Prop :=
  (s.holdingOpen ∧ t = s.withCompletion c) ∨
    (¬ s.holdingOpen ∧ t =
      { s with
        intake := { s.intake with engine := .waiting c }
        writer := { s.writer with waitList := s.writer.waitList ++ [.engine] } })

/-- The record that a waiting candidate puts into the holding queue (R138): a RETIRING job's, the completion in the
intake engine's hand, that of a job in INTAKE whose list has failed or is bad (R131), or a lane's pending event. -/
def State.recordFor (s : State) (c : Candidate) : Option HeldRecord :=
  match c with
  | .job n => some (.job n)
  | .engine =>
    match s.intake.engine with
    | .waiting x => some (.intake x)
    | .free => none
    | .recordRead _ _ => none
    | .credentialRead _ _ => none
  | .intakeJob n =>
    match s.slot n with
    | none => none
    | some j => j.intakeEnd.map (fun e => .intake
        { ring := j.ring, tag := j.spec.tag, status := e.1, detail := e.2, irqNow := j.spec.flags.getLsbD 0 })
  | .laneEvent i => (s.lane i).pendingEvent.map (HeldRecord.event i)

/-- The BARRIER in slot `m` waits, and for none but jobs whose slots are freed now (R74). -/
def State.lastFreed (s : State) (freed : SlotId → Bool) (m : SlotId) : Prop :=
  ∃ b : Job, s.slot m = some b ∧ b.state = .waiting ∧ b.waitSet ≠ [] ∧ ∀ x ∈ b.waitSet, freed x = true

/-- From `s` to `t` the slots of `freed` become FREE (R54, R74): they leave every wait set, and a BARRIER whose wait set
empties so retires with SUCCESS, ends its ring's barrier pending, and is offered after the records `held` and the
candidates `waits`. -/
structure State.frees (s t : State) (freed : SlotId → Bool) (held : List HeldRecord) (waits : List Candidate) : Prop where
  free : ∀ m : SlotId, freed m = true → t.slot m = none
  others : ∀ m : SlotId, freed m = false → (∀ b : Job, s.slot m = some b → b.state ≠ .waiting) → t.slot m = s.slot m
  waiting : ∀ (m : SlotId) (b : Job), freed m = false → s.slot m = some b → b.state = .waiting → ¬ s.lastFreed freed m →
    t.slot m = some { b with waitSet := b.waitSet.filter (fun x => !freed x) }
  retired : ∀ (m : SlotId) (b : Job), freed m = false → s.slot m = some b → s.lastFreed freed m →
    t.slot m = some
      { b with state := .retiring, waitSet := [], final := some { status := .success, okMask := 0, failMask := 0 } } ∧
    (t.ring b.ring).barrierPending = false ∧ (.job m ∈ t.writer.holding ∨ .job m ∈ t.writer.waitList)
  barrier : ∀ r : RingId, (∀ (m : SlotId) (b : Job), s.slot m = some b → b.ring = r → ¬ s.lastFreed freed m) →
    (t.ring r).barrierPending = (s.ring r).barrierPending
  offered : ∃ entered joined : List SlotId,
    t.writer.holding = held ++ entered.map HeldRecord.job ∧ t.writer.waitList = waits ++ joined.map Candidate.job ∧
    (∀ m : SlotId, m ∈ entered ∨ m ∈ joined → s.lastFreed freed m) ∧
    (entered ≠ [] → s.ctl.device ≠ .fault ∧ waits = []) ∧
    (joined ≠ [] → s.ctl.device = .fault ∨ waits ≠ [] ∨ 8 ≤ t.writer.holding.length)

/-- From `s` to `t` the candidate `front`, if there is one, has given what it held to the holding queue (R131, R133, R49):
the entry in the intake engine's hand is completed, and its ring's consumer index advances; a job in INTAKE releases
its reservations; a lane's pending event is absent; the ring of a completion at intake is not in intake. With a slot
of `freed` FREE no ring is held on SLOT (R130). Nothing else of the lanes and of the Intake Unit changes, but barrier
pending. -/
structure State.entersFrom (s t : State) (front : Option Candidate) (freed : List SlotId) : Prop where
  engine : t.intake.engine = if front = some .engine then .free else s.intake.engine
  lanes : ∀ i : LaneId, t.lane i =
    if front = some (.laneEvent i) then { s.lane i with pendingEvent := none } else s.lane i
  arbiter : t.intake.arbiter = s.intake.arbiter
  ring : ∀ r : RingId, t.ring r =
    { s.ring r with
      consumer := (t.ring r).consumer, inIntake := (t.ring r).inIntake, blocked := (t.ring r).blocked
      barrierPending := (t.ring r).barrierPending }
  consumer : ∀ x : IntakeCompletion, front = some .engine → s.intake.engine = .waiting x →
    (t.ring x.ring).consumer = ((s.ring x.ring).consumer + 1) % (s.ring x.ring).size
  consumerKept : ∀ r : RingId, (¬ ∃ x : IntakeCompletion, front = some .engine ∧ s.intake.engine = .waiting x ∧ x.ring = r) →
    (t.ring r).consumer = (s.ring r).consumer
  inIntake : ∀ r : RingId, (t.ring r).inIntake = true ↔
    (s.ring r).inIntake = true ∧ ¬ ∃ x : IntakeCompletion, front.bind s.recordFor = some (.intake x) ∧ x.ring = r
  held : ∀ r : RingId, (s.ring r).blocked = .none → (t.ring r).blocked = .none
  onSlot : ∀ r : RingId, (s.ring r).blocked = .slot → (t.ring r).blocked = if freed = [] then .slot else .none
  onQueue : ∀ r : RingId, (s.ring r).blocked = .laneQueue →
    ((t.ring r).blocked = .none ∨ (t.ring r).blocked = .laneQueue) ∧
    ((t.ring r).blocked = .none ↔ ∃ (n : SlotId) (j : Job) (w : JobSpec) (i : LaneId), front = some (.intakeJob n) ∧
      s.slot n = some j ∧ (s.ring r).held = some w ∧ inSet j.spec.lanes i = true ∧ inSet w.lanes i = true)

/-- The state once a record has been put into slot `n` in INTAKE: the engine is free, the consumer index one further,
and no entry is held (R130). -/
def State.withClaim (s : State) (r : RingId) (j : JobSpec) (n : SlotId) : State :=
  { s with
    slots := s.slots.set n.val (some (newJob r j))
    intake :=
      { s.intake with
        engine := .free
        rings := s.intake.rings.set r.val
          { s.ring r with
            consumer := ((s.ring r).consumer + 1) % (s.ring r).size, held := none, blocked := .none } } }

/-- A record read of ring `r` ends good with these bytes, and the record passes field validation and the tag check
as the job `j`, which its ring's engine then takes (R126, R127, R128). -/
def State.recordTaken (s : State) (r : RingId) (bytes : List Byte) (j : JobSpec) : Prop :=
  (∃ a : BitVec 64, s.intake.engine = .recordRead r a) ∧ s.ctl.device ≠ .fault ∧ bytes.length = 64
    ∧ validate bytes = .ok j ∧ ∀ (n : SlotId) (k : Job), s.slot n = some k → ¬ (k.ring = r ∧ k.spec.tag = j.tag)

/-- Slot `n` is the lowest-numbered FREE slot (R54). -/
def State.lowestFree (s : State) (n : SlotId) : Prop := s.slot n = none ∧ ∀ m : SlotId, m < n → s.slot m ≠ none

/-- The places taken in lane `i`'s queue: its jobs and the reservations of jobs in INTAKE (R130). -/
def State.placesTaken (s : State) (i : LaneId) : Nat :=
  (s.lane i).queue.length + (allSlots.filter (fun n =>
    match s.slot n with
    | none => false
    | some j => j.state == .intake && inSet j.spec.lanes i)).length

/-- The command `c` places the lane job `j` in slot `n`: it ends good the read of the record of a job without a list,
which passes every check, with a FREE slot and room on every lane; or it ends good the list read of a job in INTAKE,
and the list passes its checks (R130, R131, R132). -/
def State.places (s : State) (c : Instr) (n : SlotId) (j : Job) : Prop :=
  j.spec.params.kind.hasLanes = true ∧
    ((∃ (r : RingId) (bytes : List Byte), c = .recordReadEnd .live (.good bytes) ∧ s.recordTaken r bytes j.spec
        ∧ s.lowestFree n ∧ (∀ i : LaneId, inSet j.spec.lanes i = true → s.placesTaken i < 4)
        ∧ j.spec.hasList = false ∧ j = newJob r j.spec) ∨
      ∃ (bytes : List Byte) (k : Job), c = .listReadEnd .live n (.good bytes) ∧ s.slot n = some k
        ∧ bytes.length = 24 * k.spec.listCount ∧ s.ctl.device ≠ .fault ∧ k.state = .intake ∧ k.listRead = true
        ∧ k.abortMark = false ∧ k.imageFailed = none ∧ k.results = Vector.replicate 16 none
        ∧ listFault (k.spec.params.kind == .verify) 0 (parseList k.spec.listCount bytes) = none
        ∧ j = { k with list := parseList k.spec.listCount bytes, listRead := false })

/-- Lane `l` once a new request has started to go out: it takes the next seq, the lane is BUSY, its whole frame goes
out on TXD, and one more request is counted (R6, R11, R21). -/
def Lane.withRequest (l : Lane) (kind : ReqKind) (payload : List Byte) : Lane :=
  { l with
    outstanding := some { kind := kind, seq := l.nextSeq, retries := 0, waits := 0, timer := none, payload := payload }
    nextSeq := l.nextSeq + 1
    state := .busy
    tx := .frame (buildFrame l.nextSeq kind.code payload) true
    sent := l.sent + 1 }

/-- Lane `l` once its outstanding request goes out again with a retry used (R22, R24). -/
def Lane.withRetry (l : Lane) (q : Request) : Lane :=
  { l with
    outstanding := some { q with retries := q.retries + 1, timer := none }
    retransmits := l.retransmits + 1
    tx := .frame (buildFrame q.seq q.kind.code q.payload) true }

/-- The lane may start a request: nothing outstanding, TXD idle, READY, no readback host write in flight, and the device
not in FAULT (R1, R21, R33, R69). -/
def State.mayRequest (s : State) (i : LaneId) : Prop :=
  (s.lane i).outstanding = none ∧ (s.lane i).tx = .idle ∧ (s.lane i).state = .ready ∧ (s.lane i).readback = none
    ∧ s.ctl.device ≠ .fault

/-- The blocks of an image in order: every block of a segment by its index, segment after segment (R79). -/
def imageKeys (list : List Segment) : List (Nat × Nat) :=
  (List.range list.length).flatMap (fun g =>
    match list[g]? with
    | none => []
    | some e => (List.range ((e.length + 127) / 128)).map (fun b => (g, b)))

/-! ### Lanes (R21, R23, R27, R29, R69, R101) -/

/-- The kind of request that a step sends, if it sends one (R11, R37 to R42, R61 to R70, R103). -/
def Step.request : Step → Option ReqKind
  | .none => Option.none
  | .attachPhase => Option.none
  | .attachIdentify => some .identify
  | .attachSetRate => some .setRate
  | .attachRateGap => Option.none
  | .attachIdentifyAgain => some .identify
  | .attachCredential => some .unlock
  | .detachStart => some .start
  | .eraseAll => some .erase
  | .eraseRegion _ _ => some .erase
  | .programErase _ => some .erase
  | .programWrite _ => some .write
  | .programVerify _ => some .sum
  | .verifySum _ => some .sum
  | .readbackRead _ => some .read
  | .readbackWrite _ => Option.none
  | .protect => some .protect

/-- The row of the table of R27 for the lane's state: power, RESET, MODE, the identity record and the outstanding
request, and the steps in which a lane can be in POWERING, RESETTING and TRAINING. -/
def Lane.row (l : Lane) : Bool :=
  match l.state with
  | .off => !l.power && l.resetPin && !l.modePin && l.identity.isNone && l.outstanding.isNone
  | .powering =>
    l.power && l.resetPin && !l.modePin && l.identity.isNone && l.outstanding.isNone
      && (l.step == .none || l.step == .attachPhase)
  | .resetting =>
    l.power && (l.resetPin == l.resetPulse.isSome) && l.modePin && l.identity.isNone && l.outstanding.isNone
      && (l.step == .none || l.step == .attachPhase)
  | .training =>
    l.power && !l.resetPin && l.modePin && l.identity.isNone && l.outstanding.isNone
      && (l.step == .none || l.step == .attachPhase || l.step == .attachIdentify)
  | .ready => l.power && !l.resetPin && l.modePin && l.identity.isSome && l.outstanding.isNone
  | .busy => l.power && !l.resetPin && l.modePin && l.outstanding.isSome
  | .released => l.power && !l.resetPin && !l.modePin && l.identity.isNone && l.outstanding.isNone
  | .faulted => l.resetPin && l.identity.isNone && l.outstanding.isNone

/-- The outstanding request is the one that the step in hand sends, for a job that is still in the queue; no identity
record is held only during an IDENTIFY, and fewer than 256 WAITs have been taken (R21, R23, R27). -/
def Lane.requestSound (l : Lane) : Bool :=
  match l.outstanding with
  | none => true
  | some q =>
    l.step.request == some q.kind && !l.queue.isEmpty && (l.identity.isSome || q.kind == .identify)
      && q.waits < Config.maxWaits

/-- A lane conforms: its row of R27 holds, its request is sound, it is unlocked only with an identity record (R29),
it pins an entry only while an UNLOCK is outstanding (R101), and its one readback host write is in flight only while no
request is outstanding (R69). -/
def Lane.conforms (l : Lane) : Bool :=
  l.row && l.requestSound && (!l.unlocked || l.identity.isSome)
    && (l.pinned.isNone || l.outstanding.map Request.kind == some .unlock)
    && (l.readback.isNone || l.outstanding.isNone)

/-- Every lane conforms. -/
def State.lanesConform (s : State) : Prop := ∀ i : LaneId, (s.lane i).conforms = true

/-! ### Lane queues (R57, R130) -/

/-- The jobs of every lane queue and its reservations together number at most 4. -/
def State.queuesFit (s : State) : Prop :=
  ∀ i : LaneId, (s.lane i).queue.length + reservations s i ≤ Config.laneQueueRoom

/-! ### The Staging Pool (R77, R82, R86, R95) -/

/-- Each block is either on the free list or carries one key, no two blocks carry the same key, the fetch queue holds
the blocks whose reads wait, every block in use is referenced or in flight, and at most 16 reads are in flight. -/
structure Pool.sound (p : Pool) : Prop where
  freeOnce : p.freeList.Nodup
  freeIff : ∀ b : BlockId, b ∈ p.freeList ↔ p.block b = none
  oneKey : ∀ a b : BlockId, ∀ x y : Block, p.block a = some x → p.block b = some y →
    x.slot = y.slot → x.segment = y.segment → x.index = y.index → a = b
  queuedOnce : p.fetchQueue.Nodup
  queuedIff : ∀ b : BlockId, b ∈ p.fetchQueue ↔ ∃ k : Block, p.block b = some k ∧ k.state = .waiting
  referenced : ∀ b : BlockId, ∀ k : Block, p.block b = some k → k.refs ≠ 0 ∨ k.state = .inFlight
  sixteen : p.inFlight + p.stale ≤ Config.readsInFlight

/-! ### The Credential Table (R96, R101) -/

/-- The pin count of every entry is the number of lanes whose pinned index names it. -/
def State.pinsMatch (s : State) : Prop :=
  ∀ c : CredId, (s.cred c).pins = allLanes.countP (fun i => (s.lane i).pinned == some c)

/-! ### The Completion Writer (R135, R138) -/

/-- No geometry is in force and nothing is written, or the positions lie in the ring, the tail lies the unreleased
records past the host head, and they do not exceed the size (R135). -/
def CompletionRing.sound (r : CompletionRing) : Prop :=
  (r.size = 0 ∧ r.tail = 0 ∧ r.head = 0 ∧ r.unreleased = 0)
    ∨ (r.tail < r.size ∧ r.head < r.size ∧ r.unreleased ≤ r.size ∧ r.tail = (r.head + r.unreleased) % r.size)

/-- The ring is sound, and a transaction has a free entry to use (R135, R140). -/
def Writer.ringSound (w : Writer) : Prop :=
  w.ring.sound ∧ (w.txn.isSome = true → w.ring.unreleased < w.ring.size)

/-- The holding queue holds at most 8 records, and no candidate waits twice (R138). -/
def Writer.queuesSound (w : Writer) : Prop := w.holding.length ≤ Config.holdingRoom ∧ w.waitList.Nodup

end Sys2Proof.Machine
end

