-- ==== Sys2Proof/Certificates/Slice0/Obligations.lean ====
section
/-! DEFINITION. The statements for the provers. -/

open Sys2Proof Sys2Proof.Machine

/-! ### The queue of commands -/

/-- A step carries out the command at the front of the queue on the state with the rest of the queue. The model's
choices in it: log 1. -/
def Obligations.StepCarriesOutFrontCommand : Prop :=
  ∀ (c : Instr) (rest : List Instr) (s : State),
    step { s with pending := c :: rest } = exec c { s with pending := rest }

/-- No command stops the machine, whatever the state and the operands, and none touches the queue: the rules give every
command an effect in every state. The model's choices in it: log 1, log 2. -/
def Obligations.EveryCommandAnswersAndKeepsQueue : Prop :=
  ∀ (c : Instr) (s : State), ∃ t : State, exec c s = .next t ∧ t.pending = s.pending

/-! ### Resets (R164, R95, R51) -/

/-- Both resets return every block to its reset values in one happening, every lane driving MODE, RESET and POWER in
this order; they differ in CONFIG_ADDR alone, staging reads in flight go on being counted, a lane's readback write in
flight runs on, and no interrupt message is sent. The values that the rules give after a power-on reset, block by block.
The model's choices in it: log 15, log 39, log 40. -/
def Obligations.ResetsReturnEveryBlockToItsValues : Prop :=
  (∀ s : State,
    let returned := fun l : Lane => { Lane.reset with
      outputs := l.outputsAfter (some false) (some true) (some false), readback := l.readback }
    exec .powerOnReset s =
        .next { State.reset with
                ctl := { Control.reset with configAddr := 0, messages := s.ctl.messages }
                lanes := s.lanes.map returned
                pool := { Pool.reset with stale := s.pool.stale + s.pool.inFlight }
                pending := s.pending } ∧
      exec .softReset s =
        .next { State.reset with
                ctl := { Control.reset with configAddr := s.ctl.configAddr, messages := s.ctl.messages }
                lanes := s.lanes.map returned
                pool := { Pool.reset with stale := s.pool.stale + s.pool.inFlight }
                pending := s.pending }) ∧
  ((State.reset.ctl.device = .off ∧ State.reset.ctl.cause = .none ∧ State.reset.ctl.submitError = false
      ∧ State.reset.ctl.headError = false ∧ State.reset.ctl.configAddr = 0 ∧ State.reset.ctl.irq = IrqBits.clear
      ∧ State.reset.ctl.inForce = none ∧ State.reset.ctl.configRead = none ∧ State.reset.ctl.keptHalt = false
      ∧ State.reset.ctl.keptSubmit = Vector.replicate 4 none) ∧
    (∀ i : LaneId,
      (State.reset.lane i).power = false ∧ (State.reset.lane i).resetPin = true ∧ (State.reset.lane i).modePin = false
        ∧ (State.reset.lane i).tx = .idle ∧ (State.reset.lane i).state = .off ∧ (State.reset.lane i).rate = 0
        ∧ (State.reset.lane i).identity = none ∧ (State.reset.lane i).unlocked = false
        ∧ (State.reset.lane i).pinned = none ∧ (State.reset.lane i).nextSeq = 1
        ∧ (State.reset.lane i).outstanding = none ∧ (State.reset.lane i).faultCode = none
        ∧ (State.reset.lane i).pendingEvent = none ∧ (State.reset.lane i).queue = []
        ∧ (State.reset.lane i).crc = 0xFFFFFFFF ∧ (State.reset.lane i).vmin = 0 ∧ (State.reset.lane i).vmax = 0 ∧ (State.reset.lane i).outputs = []
        ∧ (State.reset.lane i).attempts = 0 ∧ (State.reset.lane i).lastRefusal = none
        ∧ (State.reset.lane i).step = .none ∧ (State.reset.lane i).segment = 0 ∧ (State.reset.lane i).block = 0
        ∧ (State.reset.lane i).offset = 0 ∧ (State.reset.lane i).erasedThrough = 0 ∧ (State.reset.lane i).sent = 0
        ∧ (State.reset.lane i).retransmits = 0 ∧ (State.reset.lane i).linkErrors = 0 ∧ (State.reset.lane i).bytes = 0
        ∧ (State.reset.lane i).checkCount = 0 ∧ (State.reset.lane i).powerSettle = none
        ∧ (State.reset.lane i).checkWait = none ∧ (State.reset.lane i).resetPulse = none
        ∧ (State.reset.lane i).bootSettle = none ∧ (State.reset.lane i).training = none
        ∧ (State.reset.lane i).rateGap = none ∧ (State.reset.lane i).rx = none
        ∧ (State.reset.lane i).readback = none ∧ (State.reset.lane i).checkPending = false
        ∧ (State.reset.lane i).supervisePending = false
        ∧ (State.reset.lane i).lastSample = 0 ∧ (State.reset.lane i).outOfWindow = 0) ∧
    (∀ n : SlotId, State.reset.slot n = none) ∧
    (State.reset.pool.freeList.map Fin.val = List.range 128 ∧ State.reset.pool.fetchQueue = []
      ∧ State.reset.pool.inFlight = 0) ∧
    (∀ c : CredId, State.reset.cred c =
      { valid := false, cls := 0, mask := 0, length := 0, bytes := List.replicate 32 0, pins := 0 }) ∧
    (State.reset.supply.converter = none ∧ State.reset.supply.checkPtr = 15 ∧ State.reset.supply.supervisePtr = 15
      ∧ State.reset.supply.timer = none) ∧
    ((∀ r : RingId, (State.reset.ring r).base = 0 ∧ (State.reset.ring r).size = 0 ∧ (State.reset.ring r).producer = 0
        ∧ (State.reset.ring r).consumer = 0 ∧ (State.reset.ring r).held = none
        ∧ (State.reset.ring r).blocked = .none ∧ (State.reset.ring r).barrierPending = false
        ∧ (State.reset.ring r).inIntake = false) ∧ State.reset.intake.arbiter = 3
      ∧ State.reset.intake.engine = .free) ∧
    (State.reset.writer.ring = { base := 0, size := 0, tail := 0, head := 0, unreleased := 0, phase := true }
      ∧ State.reset.writer.holding = [] ∧ State.reset.writer.waitList = [] ∧ State.reset.writer.txn = none ∧ State.reset.writer.count = 0
      ∧ State.reset.writer.delayTimer = none))

/-! ### CONTROL (R157, R158, R161) -/

/-- A write to CONTROL: SOFT_RESET alone when its bit is set; else ENABLE and then HALT, each as the table of R157 has
it; a read of CONTROL returns 0. ENABLE in OFF or HALTED issues the configuration block read at CONFIG_ADDR. -/
def Obligations.ControlWriteTable : Prop :=
  (∀ s : State, readWord s controlOffset = 0) ∧
    ∀ (v : BitVec 32) (s : State),
      (v.getLsbD 2 = true → exec (commandOfWrite controlOffset 32 v) s = exec .softReset s) ∧
      (v.getLsbD 2 = false → v.getLsbD 0 = true → v.getLsbD 1 = true →
        ∃ m : State, exec (.enable false) s = .next m ∧ exec (commandOfWrite controlOffset 32 v) s = exec .halt m) ∧
      (v.getLsbD 2 = false → v.getLsbD 0 = true → v.getLsbD 1 = false →
        exec (commandOfWrite controlOffset 32 v) s = exec (.enable false) s) ∧
      (v.getLsbD 2 = false → v.getLsbD 0 = false → v.getLsbD 1 = true →
        exec (commandOfWrite controlOffset 32 v) s = exec .halt s) ∧
      (v.getLsbD 2 = false → v.getLsbD 0 = false → v.getLsbD 1 = false →
        exec (commandOfWrite controlOffset 32 v) s = .next s) ∧
      (s.ctl.device = .enabling ∨ s.ctl.device = .running ∨ s.ctl.device = .quiescing ∨ s.ctl.device = .fault →
        exec (.enable false) s = .next s) ∧
      (s.ctl.device = .off ∨ s.ctl.device = .halted →
        exec (.enable false) s = .next { s with ctl :=
          { s.ctl with device := .enabling, configRead := some s.ctl.configAddr } } ∧
        exec (.enable true) s = .next { s with ctl :=
          { s.ctl with device := .enabling, configRead := some s.ctl.configAddr, keptHalt := true } }) ∧
      (s.ctl.device = .off ∨ s.ctl.device = .quiescing ∨ s.ctl.device = .halted ∨ s.ctl.device = .fault →
        exec .halt s = .next s) ∧
      (s.ctl.device = .enabling → exec .halt s = .next { s with ctl := { s.ctl with keptHalt := true } }) ∧
      (s.ctl.device = .running →
        ∃ t : State, exec .halt s = .next t ∧ (t.ctl.device = .quiescing ∨ t.ctl.device = .halted))

/-- HALT in RUNNING: QUIESCING, or HALTED in the same happening when the drain is complete already; held entries are
dropped and their blocked causes return to none; slots, lanes, pool, credentials, supply and writer are untouched.
DRAIN_COMPLETE: once the three conditions of the drain hold in QUIESCING the device is HALTED with the HALT bit of IRQ;
while one does not hold, or in another device state, nothing happens. The model's choices in it: log 2, log 15. -/
def Obligations.HaltAndDrain : Prop :=
  (∀ s : State, s.ctl.device = .running →
    ∃ t : State, exec .halt s = .next t ∧
      (∀ r : RingId, t.ring r =
        if (s.ring r).held = none then s.ring r else { s.ring r with held := none, blocked := .none }) ∧
      t.intake.arbiter = s.intake.arbiter ∧ t.intake.engine = s.intake.engine ∧
      t.slots = s.slots ∧ t.lanes = s.lanes ∧ t.pool = s.pool ∧ t.creds = s.creds ∧ t.supply = s.supply ∧
      t.writer = s.writer ∧
      (s.drained → t.ctl =
        { s.ctl with
          device := .halted
          irq := { s.ctl.irq with halt := true }
          messages := s.ctl.messages + (if s.mask.halt && !s.ctl.irq.halt then 1 else 0) }) ∧
      (¬ s.drained → t.ctl = { s.ctl with device := .quiescing })) ∧
  (∀ s : State,
    (s.ctl.device = .quiescing → s.drained →
      exec .drainComplete s = .next { s with ctl :=
        { s.ctl with
          device := .halted
          irq := { s.ctl.irq with halt := true }
          messages := s.ctl.messages + (if s.mask.halt && !s.ctl.irq.halt then 1 else 0) } }) ∧
    (s.ctl.device ≠ .quiescing ∨ ¬ s.drained → exec .drainComplete s = .next s))

/-! ### Register writes and reads (R123, R136, R143, R165, R166, R169) -/

/-- A CQ_HEAD write on a sound completion ring. The positions that the host may name run forward from the host head to
the tail; naming the one `k` further on releases `k` entries, naming the tail releases all. On a full ring, where host
head and tail are one position, only that one may be named (log 8). Every other write sets HEAD_ERROR. The model's
choices in it: log 8. -/
def Obligations.CqHeadReleasesEntries : Prop :=
  ∀ (v : BitVec 32) (s : State), s.writer.ring.sound →
    let h := (v.extractLsb' 0 16).toNat
    let r := s.writer.ring
    (h < r.size → h = r.tail →
      exec (.cqHeadWrite v) s = .next { s with writer :=
        { s.writer with ring := { r with head := h, unreleased := 0 } } }) ∧
    (∀ k : Nat, k < r.unreleased → r.unreleased < r.size → h = (r.head + k) % r.size →
      exec (.cqHeadWrite v) s = .next { s with writer :=
        { s.writer with ring := { r with head := h, unreleased := r.unreleased - k } } }) ∧
    ((r.size ≤ h ∨ (h ≠ r.tail ∧ (r.unreleased = r.size ∨ ∀ k : Nat, k ≤ r.unreleased → h ≠ (r.head + k) % r.size))) →
      exec (.cqHeadWrite v) s = .next { s with ctl := { s.ctl with headError := true } })

/-- A SUBMIT: outside ENABLING a good one sets the ring's producer index and a bad one SUBMIT_ERROR; during ENABLING it
is kept, or dropped with SUBMIT_ERROR for ring 4 or above. A write to IRQ clears exactly the pending bits written as 1.
A write to STATUS clears SUBMIT_ERROR and HEAD_ERROR where written as 1, and changes no other field. A write to one half
of CONFIG_ADDR stores that half and keeps the other; a read returns the halves; a read in flight keeps its address. A
write of fewer than 32 bits, a write to LANE_STATE and a write to an offset that the table of registers does not list
have no effect. The model's choices in it: log 9. -/
def Obligations.RegisterWritesTakeEffect : Prop :=
  (∀ (v : BitVec 32) (s : State),
    let ring := (v.extractLsb' 16 8).toNat
    let index := (v.extractLsb' 0 16).toNat
    (s.ctl.device ≠ .enabling →
      (∀ r : RingId, ring = r.val → index < (s.ring r).size →
        exec (.submitWrite v) s = .next (s.modRing r (fun g => { g with producer := index }))) ∧
      ((4 ≤ ring ∨ ∃ r : RingId, ring = r.val ∧ (s.ring r).size ≤ index) →
        exec (.submitWrite v) s = .next { s with ctl := { s.ctl with submitError := true } })) ∧
    (s.ctl.device = .enabling →
      (∀ r : RingId, ring = r.val →
        exec (.submitWrite v) s = .next { s with ctl :=
          { s.ctl with keptSubmit := s.ctl.keptSubmit.set r.val (some (v.extractLsb' 0 16)) } }) ∧
      (4 ≤ ring → exec (.submitWrite v) s = .next { s with ctl := { s.ctl with submitError := true } }))) ∧
  ((∀ (v : BitVec 32) (s : State),
    exec (.irqWrite v) s = .next { s with ctl := { s.ctl with irq :=
      { cq := if v.getLsbD 0 then false else s.ctl.irq.cq
        fault := if v.getLsbD 1 then false else s.ctl.irq.fault
        halt := if v.getLsbD 2 then false else s.ctl.irq.halt } } }) ∧
  (∀ (v : BitVec 32) (s : State),
    exec (.statusWrite v) s = .next { s with ctl :=
      { s.ctl with
        submitError := if v.getLsbD 8 then false else s.ctl.submitError
        headError := if v.getLsbD 9 then false else s.ctl.headError } }) ∧
  (∀ (v : BitVec 32) (s : State), ∃ t u : State,
    exec (.configAddrWrite .low v) s = .next t ∧ exec (.configAddrWrite .high v) s = .next u ∧
      t = { s with ctl := { s.ctl with configAddr := t.ctl.configAddr } } ∧
      u = { s with ctl := { s.ctl with configAddr := u.ctl.configAddr } } ∧
      readWord t 0x00 = v ∧ readWord t 0x04 = readWord s 0x04 ∧
      readWord u 0x04 = v ∧ readWord u 0x00 = readWord s 0x00) ∧
  (∀ (offset bits : Nat) (v : BitVec 32) (s : State),
    exec (.registerWriteIgnored offset bits v) s = .next s ∧
      (bits < 32 ∨ offset = 0x20 ∨ offset = 0x24 ∨ offset ∉ [0x00, 0x04, 0x08, 0x0C, 0x10, 0x14, 0x18] →
        exec (commandOfWrite offset bits v) s = .next s)))

/-- STATUS reads its five fields at their places: device state in bits 0 to 2, last cause in 4 to 6, SUBMIT_ERROR at 8,
HEAD_ERROR at 9, slots in use in 16 to 21; every other bit reads 0. LANE_STATE shows the state code of every lane in
four bits: lane 0 to 7 in the low word, 8 to 15 in the high word. IRQ reads its three pending bits in bits 0 to 2,
CQ_HEAD the host head in bits 0 to 15, CONFIG_ADDR the halves of the address stored; CONTROL, SUBMIT and every offset
that the table does not list read 0. The codes are those of 11.3. -/
def Obligations.StatusAndLaneStateRead : Prop :=
  (∀ s : State,
    ((readWord s 0x0C).extractLsb' 0 3).toNat = s.ctl.device.code ∧
      ((readWord s 0x0C).extractLsb' 4 3).toNat = s.ctl.cause.code ∧
      (readWord s 0x0C).getLsbD 8 = s.ctl.submitError ∧ (readWord s 0x0C).getLsbD 9 = s.ctl.headError ∧
      ((readWord s 0x0C).extractLsb' 16 6).toNat = (allSlots.filter (fun n => (s.slot n).isSome)).length ∧
      ∀ k : Nat, k = 3 ∨ k = 7 ∨ (10 ≤ k ∧ k < 16) ∨ 22 ≤ k → (readWord s 0x0C).getLsbD k = false) ∧
  (∀ (s : State) (i : LaneId),
    ((readWord s (if i.val < 8 then 0x20 else 0x24)).extractLsb' (4 * (i.val % 8)) 4).toNat = (s.lane i).state.code) ∧
  (∀ s : State,
    ((readWord s 0x18).getLsbD 0 = s.ctl.irq.cq ∧ (readWord s 0x18).getLsbD 1 = s.ctl.irq.fault ∧
      (readWord s 0x18).getLsbD 2 = s.ctl.irq.halt ∧ ∀ k : Nat, 3 ≤ k → (readWord s 0x18).getLsbD k = false) ∧
    (s.writer.ring.head < 2 ^ 16 → ((readWord s 0x14).extractLsb' 0 16).toNat = s.writer.ring.head ∧
      ∀ k : Nat, 16 ≤ k → (readWord s 0x14).getLsbD k = false) ∧
    readWord s 0x00 = s.ctl.configAddr.extractLsb' 0 32 ∧ readWord s 0x04 = s.ctl.configAddr.extractLsb' 32 32 ∧
    readWord s 0x08 = 0 ∧ readWord s 0x10 = 0 ∧
    ∀ offset : Nat, offset ∉ [0x00, 0x04, 0x08, 0x0C, 0x10, 0x14, 0x18, 0x20, 0x24] → readWord s offset = 0) ∧
  [DeviceState.off, .enabling, .running, .quiescing, .halted, .fault].map DeviceState.code = [0, 1, 2, 3, 4, 5] ∧
  [Cause.none, .configInvalid, .configRead, .ringRead, .completionWrite].map Cause.code = [0, 1, 2, 3, 4] ∧
  [LaneState.off, .powering, .resetting, .training, .ready, .busy, .released, .faulted].map LaneState.code =
    [0, 1, 2, 3, 4, 5, 6, 7]

/-! ### The configuration block (R158, R159, R160) -/

/-- The configuration block is accepted exactly when every value meets its condition, and a block that breaks one is
refused: OFF with cause CONFIG_INVALID, what ENABLING kept is discarded without a flag, and a transaction of the writer
goes on from where it stood; no value in force changes and no interrupt bit is set. The model's choices in it: log 30.
-/
def Obligations.ConfigBlockCheckedAndRefused : Prop :=
  ∀ bytes : List Byte,
    ((parseConfig bytes).accepted = true ↔
      (∀ r : Fin 4, leField bytes (32 + 2 * r.val) 2 = 0 ∨
        (4 ≤ leField bytes (32 + 2 * r.val) 2 ∧ leField bytes (32 + 2 * r.val) 2 ≤ 1024 ∧
          leField bytes (8 * r.val) 8 % 64 = 0)) ∧
      (∃ r : Fin 4, leField bytes (32 + 2 * r.val) 2 ≠ 0) ∧
      16 ≤ leField bytes 48 2 ∧ leField bytes 48 2 ≤ 4096 ∧ leField bytes 40 8 % 16 = 0 ∧
      1 ≤ leField bytes 50 1 ∧ leField bytes 50 1 ≤ 64 ∧ leField bytes 52 2 ≤ 10000 ∧
      5 ≤ leField bytes 54 2 ∧ leField bytes 54 2 ≤ 1000 ∧ 100 ≤ leField bytes 56 2 ∧ leField bytes 56 2 ≤ 60000 ∧
      leField bytes 51 1 ≤ 3 ∧ 1 ≤ leField bytes 58 2 ∧ leField bytes 58 2 ≤ 1000 ∧ leField bytes 60 1 < 8) ∧
    ∀ s : State, s.ctl.device = .enabling → s.ctl.configRead.isSome = true → bytes.length = 64 →
      (parseConfig bytes).accepted = false →
        (s.writer.txn ≠ some (.results []) →
          exec (.configReadEnd .live (.good bytes)) s = .next { s with ctl :=
            { s.ctl with
              device := .off, cause := .configInvalid, configRead := none, keptSubmit := Vector.replicate 4 none
              keptHalt := false } }) ∧
        (∀ (r : HeldRecord) (rest : List HeldRecord), s.writer.txn = some (.results []) →
          s.writer.holding = r :: rest →
          exec (.configReadEnd .live (.good bytes)) s = .next { s with
            ctl :=
              { s.ctl with
                device := .off, cause := .configInvalid, configRead := none, keptSubmit := Vector.replicate 4 none
                keptHalt := false }
            writer := { s.writer with txn := some (.completion (completionOut s r)) } })

/-- An accepted block: its values are in force; every ring takes its base and size, indices 0 and the SUBMIT kept for
it, checked against the new geometry; the completion ring, coalescing and the supervise timer start afresh; flags,
slots, lanes, pool, credentials and held records are untouched; the device is RUNNING, or with a kept HALT in QUIESCING,
and HALTED at once when the drain is complete. -/
def Obligations.ConfigAcceptedComesIntoForce : Prop :=
  ∀ (s : State) (bytes : List Byte),
    let c := parseConfig bytes
    s.ctl.device = .enabling → s.ctl.configRead.isSome = true → bytes.length = 64 → c.accepted = true →
    ∃ t : State, exec (.configReadEnd .live (.good bytes)) s = .next t ∧
      t.ctl.inForce = some c.settings ∧ t.ctl.cause = .none ∧ t.ctl.configRead = none ∧
      t.ctl.keptHalt = false ∧ t.ctl.keptSubmit = Vector.replicate 4 none ∧
      t.ctl.headError = s.ctl.headError ∧ t.ctl.configAddr = s.ctl.configAddr ∧
      (t.ctl.submitError = true ↔ s.ctl.submitError = true ∨
        ∃ r : RingId, ∃ x : BitVec 16, s.ctl.keptSubmit[r.val] = some x ∧ c.ringSizes[r.val] ≤ x.toNat) ∧
      (∀ r : RingId, t.ring r =
        { base := c.ringBases[r.val]
          size := c.ringSizes[r.val]
          producer :=
            match s.ctl.keptSubmit[r.val] with
            | none => 0
            | some x => if x.toNat < c.ringSizes[r.val] then x.toNat else 0
          consumer := 0, held := none, blocked := .none, barrierPending := false, inIntake := false }) ∧
      t.intake.arbiter = 3 ∧ t.intake.engine = s.intake.engine ∧
      t.slots = s.slots ∧ t.lanes = s.lanes ∧ t.pool = s.pool ∧ t.creds = s.creds ∧
      t.supply = { s.supply with timer := some c.settings.supervisePeriod } ∧
      t.writer = { s.writer with
        ring := { base := c.cqBase, size := c.cqSize, tail := 0, head := 0, unreleased := 0, phase := true }
        txn := none, count := 0, delayTimer := none } ∧
      (s.ctl.keptHalt = false → t.ctl.device = .running ∧ t.ctl.irq = s.ctl.irq) ∧
      (s.ctl.keptHalt = true → s.drained → t.ctl.device = .halted ∧ t.ctl.irq = { s.ctl.irq with halt := true }) ∧
      (s.ctl.keptHalt = true → ¬ s.drained → t.ctl.device = .quiescing ∧ t.ctl.irq = s.ctl.irq)

/-- A failed host transfer of Device Control, the intake engine or the Completion Writer puts the device into FAULT with
its cause and the FAULT bit; the ring, the slot and the record it belongs to stay as they are. In FAULT a further report
is discarded. The end of a host transfer that was issued before a reset, or that no longer belongs to anything, reaches
nothing; for a staging read only the count of such reads falls. A record read that ends in FAULT, or with no record read
in hand, is discarded. The model's choices in it: log 2, log 6, log 15. -/
def Obligations.TransfersFailOrComeLate : Prop :=
  (∀ s : State,
    (s.ctl.device = .enabling → s.ctl.configRead.isSome = true →
      exec (.configReadEnd .live .failed) s = .next { s with ctl := controlAfterFault s .configRead }) ∧
    (∀ (r : RingId) (a : BitVec 64), s.intake.engine = .recordRead r a →
      (s.ctl.device ≠ .fault →
        exec (.recordReadEnd .live .failed) s = .next { s with ctl := controlAfterFault s .ringRead }) ∧
      (s.ctl.device = .fault → exec (.recordReadEnd .live .failed) s = .next s)) ∧
    (∀ (i : LaneId) (ws : List ResultWrite), s.writer.txn = some (.results ws) → (∃ w ∈ ws, w.lane = i) →
      (s.ctl.device ≠ .fault → exec (.resultRecordWriteEnd .live i .failed) s = .next { s with
        ctl := controlAfterFault s .completionWrite
        writer := { s.writer with txn := some (.results (ws.filter (fun w => w.lane != i))) } }) ∧
      (s.ctl.device = .fault → exec (.resultRecordWriteEnd .live i .failed) s = .next { s with
        writer := { s.writer with txn := some (.results (ws.filter (fun w => w.lane != i))) } })) ∧
    (∀ (o : HostWriteOut) (h : HeldRecord) (rest : List HeldRecord), s.writer.txn = some (.completion o) →
      s.writer.holding = h :: rest →
      (s.ctl.device ≠ .fault → exec (.completionRecordWriteEnd .live .failed) s = .next { s with
        ctl := controlAfterFault s .completionWrite
        writer := { s.writer with txn := none } }) ∧
      (s.ctl.device = .fault → exec (.completionRecordWriteEnd .live .failed) s = .next { s with
        writer := { s.writer with txn := none } }))) ∧
  ((∀ (s : State) (r : HostRead) (w : HostWrite) (n : SlotId) (b : BlockId) (i : LaneId),
    exec (.configReadEnd .abandoned r) s = .next s ∧ exec (.recordReadEnd .abandoned r) s = .next s ∧
      exec (.listReadEnd .abandoned n r) s = .next s ∧ exec (.loadCredentialReadEnd .abandoned r) s = .next s ∧
      exec (.resultRecordWriteEnd .abandoned i w) s = .next s ∧
      exec (.completionRecordWriteEnd .abandoned w) s = .next s ∧
      ((s.lane i).readback = none ∨ (∃ off : Nat, (s.lane i).step = .readbackWrite off) →
        exec (.readbackWriteEnd .abandoned i w) s = .next s) ∧
      exec (.stagingReadEnd .abandoned b r) s = .next { s with pool := { s.pool with stale := s.pool.stale - 1 } }) ∧
  (∀ (s : State) (r : HostRead),
    (s.ctl.device = .fault ∨ ∀ (g : RingId) (a : BitVec 64), s.intake.engine ≠ .recordRead g a) →
    exec (.recordReadEnd .live r) s = .next s))

/-! ### Intake (R98, R99, R125 to R133) -/

/-- The arbiter takes the first eligible ring counting upward from the ring after the pointer, and wrapping; with no
held entry the record read of the entry at the consumer index is issued. Outside RUNNING, with the engine not free or
with no ring eligible, nothing happens. A chosen ring with a held entry has it examined again without a new read: it is
held again with cause SLOT when no slot is FREE, or with LANE_QUEUE when some lane has no room, and is else claimed, a
job with a list into INTAKE; and the examination has the effect that it would have on a record just read. The model's
choices in it: log 2, log 4, log 34. -/
def Obligations.ArbiterChoosesOrExaminesAgain : Prop :=
  ∀ s : State,
    let ok := fun r : RingId => (s.ring r).pendingEntries ≠ 0 ∧ (s.ring r).blocked = .none
      ∧ (s.ring r).barrierPending = false ∧ (s.ring r).inIntake = false
    let chosen := fun k : Fin 4 => s.ctl.device = .running ∧ s.intake.engine = .free ∧ ok (s.intake.arbiter + 1 + k) ∧
      ∀ m : Fin 4, m < k → ¬ ok (s.intake.arbiter + 1 + m)
    (∀ k : Fin 4, chosen k → (s.ring (s.intake.arbiter + 1 + k)).held = none →
      let r := s.intake.arbiter + 1 + k
      exec .intakeArbiterChoice s = .next { s with intake :=
        { rings := s.intake.rings.set r.val { s.ring r with inIntake := true }
          arbiter := r
          engine := .recordRead r ((s.ring r).base + BitVec.ofNat 64 (64 * (s.ring r).consumer)) } }) ∧
    (∀ (k : Fin 4) (j : JobSpec), chosen k → (s.ring (s.intake.arbiter + 1 + k)).held = some j →
      let r := s.intake.arbiter + 1 + k
      ((∀ n : SlotId, s.slot n ≠ none) →
        exec .intakeArbiterChoice s = .next { s with intake :=
          { s.intake with
            rings := s.intake.rings.set r.val { s.ring r with blocked := .slot }, arbiter := r } }) ∧
      ((∃ n : SlotId, s.slot n = none) → (∃ i : LaneId, inSet j.lanes i = true ∧ 4 ≤ s.placesTaken i) →
        exec .intakeArbiterChoice s = .next { s with intake :=
          { s.intake with
            rings := s.intake.rings.set r.val { s.ring r with blocked := .laneQueue }, arbiter := r } }) ∧
      (∀ n : SlotId, s.lowestFree n → (∀ i : LaneId, inSet j.lanes i = true → s.placesTaken i < 4) →
        (j.params = .program ∨ j.params = .verify ∨ (j.params = .erase ∧ 0 < j.listCount)) →
        exec .intakeArbiterChoice s = .next { s with
          slots := s.slots.set n.val (some (newJob r j))
          intake :=
            { s.intake with
              arbiter := r
              rings := s.intake.rings.set r.val
                { s.ring r with
                  consumer := ((s.ring r).consumer + 1) % (s.ring r).size, held := none, inIntake := true } } }) ∧
      ∀ (bytes : List Byte) (a : BitVec 64),
        let u : State := { s with intake :=
          { rings := s.intake.rings.set r.val { s.ring r with held := none, inIntake := true }
            arbiter := r
            engine := .recordRead r a } }
        u.recordTaken r bytes j → j.params.kind ≠ .abort → j.params.kind ≠ .loadCredential →
        j.params.kind ≠ .clearCredential →
        exec .intakeArbiterChoice s = exec (.recordReadEnd .live (.good bytes)) u) ∧
    (s.ctl.device ≠ .running ∨ s.intake.engine ≠ .free ∨ (∀ r : RingId, ¬ ok r) →
      exec .intakeArbiterChoice s = .next s)

/-- Field validation: the first check of R127 that fails gives the detail, and a record that passes all becomes a job
with the record's fields, the parameters of its kind among them. -/
def Obligations.RecordValidationOrder : Prop :=
  ∀ bytes : List Byte, bytes.length = 64 →
    let kind := leField bytes 0 1
    let retry := leField bytes 1 1
    let lanes := leField bytes 4 2
    let eraseAll := (BitVec.ofNat 16 (leField bytes 6 2)).getLsbD 2
    let listAddr := leField bytes 8 8
    let count := leField bytes 16 1
    let resultAddr := leField bytes 24 8
    let badKind := kind = 0 ∨ 11 < kind
    let badLanes := (kind ≤ 7 ∧ lanes = 0) ∨ (8 ≤ kind ∧ lanes ≠ 0)
    let badCount :=
      ((kind = 4 ∨ kind = 5 ∨ (kind = 3 ∧ eraseAll = false)) ∧ ¬ (1 ≤ count ∧ count ≤ 16)) ∨
      (kind = 9 ∧ count ≠ 1) ∨
      ((kind = 1 ∨ kind = 2 ∨ (kind = 3 ∧ eraseAll = true) ∨ kind = 6 ∨ kind = 7 ∨ kind = 8 ∨ 10 ≤ kind) ∧ count ≠ 0)
    let badParam :=
      7 < retry ∨
      (kind = 1 ∧ ¬ (leField bytes 32 1 ≤ 7 ∧ leField bytes 33 1 ≤ 7 ∧ 1 ≤ leField bytes 34 2 ∧ leField bytes 34 2 ≤ 1000 ∧
        1 ≤ leField bytes 36 1 ∧ (leField bytes 37 1 ≤ 7 ∨ leField bytes 37 1 = 0x10 ∨ leField bytes 37 1 = 0x11) ∧
        1 ≤ leField bytes 38 2 ∧ leField bytes 38 2 ≤ 1000 ∧ leField bytes 42 2 ≤ 6000 ∧
        leField bytes 40 2 ≤ leField bytes 42 2)) ∨
      (kind = 6 ∧ ¬ (1 ≤ leField bytes 36 4 ∧ leField bytes 36 4 ≤ 1048576 ∧ leField bytes 36 4 ≤ leField bytes 48 4)) ∨
      (kind = 7 ∧ ¬ (leField bytes 32 1 = 1 ∨ leField bytes 32 1 = 2)) ∨
      (kind = 9 ∧ ¬ (leField bytes 32 1 ≤ 7 ∧ 4 ≤ leField bytes 33 1 ∧ leField bytes 33 1 ≤ 32)) ∨
      (kind = 10 ∧ ¬ (leField bytes 32 1 ≤ 7 ∨ leField bytes 32 1 = 0xFF)) ∨
      (kind = 11 ∧ ¬ leField bytes 32 1 ≤ 3)
    let badAlign := (0 < count ∧ listAddr % 8 ≠ 0) ∨ (kind ≤ 7 ∧ resultAddr % 16 ≠ 0)
    (badKind → validate bytes = .error .badKind) ∧
      (¬ badKind → badLanes → validate bytes = .error .badLanes) ∧
      (¬ badKind → ¬ badLanes → badCount → validate bytes = .error .badCount) ∧
      (¬ badKind → ¬ badLanes → ¬ badCount → badParam → validate bytes = .error .badParam) ∧
      (¬ badKind → ¬ badLanes → ¬ badCount → ¬ badParam → badAlign → validate bytes = .error .badAlign) ∧
      (¬ badKind → ¬ badLanes → ¬ badCount → ¬ badParam → ¬ badAlign →
        ∃ j : JobSpec, validate bytes = .ok j ∧ j.tag.toNat = leField bytes 2 2 ∧ j.lanes.toNat = lanes ∧
          j.flags.toNat = leField bytes 6 2 ∧ j.retryLimit = retry ∧ j.listAddr.toNat = listAddr ∧
          j.listCount = count ∧ j.resultAddr.toNat = resultAddr ∧ JobKind.ofCode kind = some j.params.kind ∧
          (kind = 1 → ∃ p : AttachParams, j.params = .attach p ∧ p.startRate.val = leField bytes 32 1 ∧
            p.targetRate.val = leField bytes 33 1 ∧ p.powerSettle = leField bytes 34 2 ∧
            p.resetPulse = leField bytes 36 1 ∧ p.bootSettle = leField bytes 38 2 ∧ p.vmin = leField bytes 40 2 ∧
            p.vmax = leField bytes 42 2 ∧ (leField bytes 37 1 = 0x10 → p.selector = .auto) ∧
            (leField bytes 37 1 = 0x11 → p.selector = .none) ∧
            ∀ e : CredId, leField bytes 37 1 = e.val → p.selector = .entry e) ∧
          (kind = 2 → ∃ e : BitVec 32, j.params = .detach e ∧ e.toNat = leField bytes 32 4) ∧
          (kind = 6 → ∃ (a : BitVec 32) (d : BitVec 64), j.params = .readback a (leField bytes 36 4) d (leField bytes 48 4) ∧
            a.toNat = leField bytes 32 4 ∧ d.toNat = leField bytes 40 8) ∧
          (kind = 7 → ∃ l : BitVec 8, j.params = .protect l ∧ l.toNat = leField bytes 32 1) ∧
          (kind = 9 → ∃ (e : CredId) (c m : BitVec 16), j.params = .loadCredential e (leField bytes 33 1) c m ∧
            e.val = leField bytes 32 1 ∧ c.toNat = leField bytes 34 2 ∧ m.toNat = leField bytes 36 2) ∧
          (kind = 10 → (leField bytes 32 1 = 0xFF → j.params = .clearCredential none) ∧
            ∀ e : CredId, leField bytes 32 1 = e.val → j.params = .clearCredential (some e)) ∧
          (kind = 11 → ∃ (r : RingId) (t : BitVec 16), j.params = .abort r t ∧ r.val = leField bytes 32 1 ∧
            t.toNat = leField bytes 34 2))

/-- A record that fails validation, or whose tag a slot job of its ring carries, is completed at intake: its completion
enters the holding queue with the ring's consumer index advancing in the same happening, or, when the queue is full or
others wait, joins the wait list with the entry kept in hand. -/
def Obligations.RefusedRecordCompletesAtIntake : Prop :=
  ∀ (s : State) (r : RingId) (a : BitVec 64) (bytes : List Byte) (st : Status) (d : Detail),
    s.intake.engine = .recordRead r a → s.ctl.device ≠ .fault → bytes.length = 64 →
    (validate bytes = .error d ∧ st = .invalid) ∨
      (∃ (j : JobSpec) (n : SlotId) (k : Job), validate bytes = .ok j ∧ s.slot n = some k ∧ k.ring = r ∧
        k.spec.tag = j.tag ∧ st = .dupTag ∧ d = .none) →
    let c : IntakeCompletion :=
      { ring := r, tag := BitVec.ofNat 16 (leField bytes 2 2), status := st, detail := d,
        irqNow := (BitVec.ofNat 16 (leField bytes 6 2)).getLsbD 0 }
    (s.holdingOpen → exec (.recordReadEnd .live (.good bytes)) s = .next (s.withCompletion c)) ∧
    (¬ s.holdingOpen → .engine ∉ s.writer.waitList →
      exec (.recordReadEnd .live (.good bytes)) s = .next { s with
        intake := { s.intake with engine := .waiting c }
        writer := { s.writer with waitList := s.writer.waitList ++ [.engine] } })

/-- A record of a kind that takes a slot. With no FREE slot it becomes the ring's held entry with cause SLOT, and with
no room on some lane with cause LANE_QUEUE. Else it is claimed into the lowest-numbered FREE slot, the consumer index
advances and the engine is free: a job with a list stands in INTAKE with its list read issued; a BARRIER waits for the
other jobs of its ring that hold slots, with its ring's barrier pending, or retires at once with SUCCESS when there are
none; a job without a list whose lanes all have jobs before it is QUEUED at the tail of every lane's queue. The model's
choices in it: log 28. -/
def Obligations.RecordsAreClaimedOrHeld : Prop :=
  ∀ (s : State) (r : RingId) (bytes : List Byte) (j : JobSpec), s.recordTaken r bytes j →
    j.params.kind ≠ .abort → j.params.kind ≠ .loadCredential → j.params.kind ≠ .clearCredential →
    let ring : Ring := { s.ring r with
      consumer := ((s.ring r).consumer + 1) % (s.ring r).size, held := none, blocked := .none, inIntake := false }
    ((∀ n : SlotId, s.slot n ≠ none) →
      exec (.recordReadEnd .live (.good bytes)) s = .next { s with intake :=
        { s.intake with
          engine := .free
          rings := s.intake.rings.set r.val
            { s.ring r with held := some j, blocked := .slot, inIntake := false } } }) ∧
    ((∃ n : SlotId, s.slot n = none) → (∃ i : LaneId, inSet j.lanes i = true ∧ 4 ≤ s.placesTaken i) →
      exec (.recordReadEnd .live (.good bytes)) s = .next { s with intake :=
        { s.intake with
          engine := .free
          rings := s.intake.rings.set r.val
            { s.ring r with held := some j, blocked := .laneQueue, inIntake := false } } }) ∧
    ∀ n : SlotId, s.lowestFree n → (∀ i : LaneId, inSet j.lanes i = true → s.placesTaken i < 4) →
      (j.params = .program ∨ j.params = .verify ∨ (j.params = .erase ∧ 0 < j.listCount) →
        exec (.recordReadEnd .live (.good bytes)) s = .next (s.withClaim r j n) ∧
          ∀ t : State, t = s.withClaim r j n → ∃ k : Job, t.slot n = some k ∧ k.state = .intake ∧ k.ring = r
            ∧ k.spec = j ∧ k.listRead = true) ∧
      (j.params = .barrier → ∃ t : State, exec (.recordReadEnd .live (.good bytes)) s = .next t ∧
        (∀ m : SlotId, m ≠ n → t.slot m = s.slot m) ∧ (∀ q : RingId, q ≠ r → t.ring q = s.ring q) ∧
        t.intake.engine = .free ∧ t.intake.arbiter = s.intake.arbiter ∧ t.ctl = s.ctl ∧ t.lanes = s.lanes ∧
        t.pool = s.pool ∧ t.creds = s.creds ∧ t.supply = s.supply ∧
        ((∃ (m : SlotId) (k : Job), s.slot m = some k ∧ k.ring = r) → t.writer = s.writer ∧
          t.ring r = { ring with barrierPending := true } ∧
          ∃ w : List SlotId, t.slot n = some { newJob r j with state := .waiting, waitSet := w } ∧
            ∀ m : SlotId, m ∈ w ↔ ∃ k : Job, s.slot m = some k ∧ k.ring = r) ∧
        ((¬ ∃ (m : SlotId) (k : Job), s.slot m = some k ∧ k.ring = r) →
          t.ring r = { ring with barrierPending := false } ∧
          t.slot n = some { newJob r j with
            state := .retiring, final := some { status := .success, okMask := 0, failMask := 0 } } ∧
          (s.holdingOpen → t.writer = { s.writer with holding := s.writer.holding ++ [.job n] }))) ∧
      (j.params.kind.hasLanes = true → j.params ≠ .program → j.params ≠ .verify →
        (j.params = .erase → j.listCount = 0) →
        (∀ i : LaneId, inSet j.lanes i = true → (s.lane i).queue ≠ []) →
        ∃ t : State, exec (.recordReadEnd .live (.good bytes)) s = .next t ∧
          t.slot n = some { newJob r j with state := .queued } ∧ (∀ m : SlotId, m ≠ n → t.slot m = s.slot m) ∧
          t.ring r = ring ∧ (∀ q : RingId, q ≠ r → t.ring q = s.ring q) ∧ t.intake.engine = .free ∧
          (∀ i : LaneId, t.lane i =
            if inSet j.lanes i then { s.lane i with queue := (s.lane i).queue ++ [n] } else s.lane i) ∧
          t.ctl = s.ctl ∧ t.pool = s.pool ∧ t.creds = s.creds ∧ t.supply = s.supply ∧ t.writer = s.writer)

/-- CLEAR_CREDENTIAL empties the entry, or with ALL every entry, when no entry concerned is pinned, and completes DONE;
else it clears nothing and completes CREDENTIAL_BUSY. It reads nothing and is one happening. -/
def Obligations.ClearCredentialTable : Prop :=
  ∀ (s : State) (r : RingId) (bytes : List Byte) (j : JobSpec) (e : Option CredId), s.recordTaken r bytes j →
    j.params = .clearCredential e → .engine ∉ s.writer.waitList →
    let concerned := fun c : CredId => e = none ∨ e = some c
    let c : Status → IntakeCompletion := fun st =>
      { ring := r, tag := BitVec.ofNat 16 (leField bytes 2 2), status := st, detail := .none,
        irqNow := (BitVec.ofNat 16 (leField bytes 6 2)).getLsbD 0 }
    ((∀ k : CredId, concerned k → (s.cred k).pins = 0) →
      ∃ t u : State, exec (.recordReadEnd .live (.good bytes)) s = .next t ∧ s.posts u (c .done) ∧
        t = { u with creds := t.creds } ∧
        (∀ k : CredId, concerned k → t.cred k =
          { valid := false, cls := 0, mask := 0, length := 0, bytes := List.replicate 32 0, pins := (s.cred k).pins }) ∧
        (∀ k : CredId, ¬ concerned k → t.cred k = s.cred k)) ∧
    ((∃ k : CredId, concerned k ∧ (s.cred k).pins ≠ 0) →
      ∃ u : State, exec (.recordReadEnd .live (.good bytes)) s = .next u ∧ s.posts u (c .credentialBusy))

/-- LOAD_CREDENTIAL in two happenings. Its record read: the credential bytes read is issued and nothing else changes.
The end of that read: a good one writes the entry whole when it is not pinned and completes DONE, leaves it when it is
pinned and completes CREDENTIAL_BUSY, and a failed one leaves it and completes HOST_ERROR; in FAULT the entry is
unchanged and nothing is posted. The model's choices in it: log 20. -/
def Obligations.LoadCredentialReadEndTable : Prop :=
  (∀ (s : State) (r : RingId) (bytes : List Byte) (j : JobSpec) (e : CredId) (len : Nat) (cls mask : BitVec 16),
    s.recordTaken r bytes j → j.params = .loadCredential e len cls mask →
    exec (.recordReadEnd .live (.good bytes)) s = .next { s with intake :=
      { s.intake with engine := .credentialRead r j } }) ∧
  ∀ (s : State) (r : RingId) (j : JobSpec) (e : CredId) (len : Nat) (cls mask : BitVec 16) (bytes : List Byte),
    s.intake.engine = .credentialRead r j → j.params = .loadCredential e len cls mask → bytes.length = len →
    let c : Status → IntakeCompletion := fun st =>
      { ring := r, tag := j.tag, status := st, detail := .none, irqNow := j.flags.getLsbD 0 }
    (s.ctl.device ≠ .fault → .engine ∉ s.writer.waitList →
      (∃ u : State, exec (.loadCredentialReadEnd .live .failed) s = .next u ∧ s.posts u (c .hostError)) ∧
      ((s.cred e).pins ≠ 0 →
        ∃ u : State, exec (.loadCredentialReadEnd .live (.good bytes)) s = .next u ∧ s.posts u (c .credentialBusy)) ∧
      ((s.cred e).pins = 0 → ∃ u : State, s.posts u (c .done) ∧
        exec (.loadCredentialReadEnd .live (.good bytes)) s = .next { u with
          creds := s.creds.set e.val
            { valid := true, cls := cls, mask := mask, length := len, pins := 0
              bytes := bytes ++ List.replicate (32 - len) 0 } })) ∧
    (s.ctl.device = .fault →
      exec (.loadCredentialReadEnd .live .failed) s = .next s ∧
        exec (.loadCredentialReadEnd .live (.good bytes)) s = .next s)

/-- The list checks, entry by entry in list order: the first failing entry decides, and within an entry the order is
length, end address, HAS_CRC of a VERIFY, order. -/
def Obligations.ListChecksFirstFailingEntry : Prop :=
  ∀ (verify : Bool) (list : List Segment),
    let stop := fun k : Nat =>
      if k = 0 then 0 else match list[k - 1]? with
        | none => 0
        | some e => e.target.toNat + e.length
    let fault := fun (k : Nat) (e : Segment) =>
      if e.length = 0 ∨ 1048576 < e.length then some Detail.badCount
      else if 2 ^ 32 < e.target.toNat + e.length then some Detail.badParam
      else if verify = true ∧ e.hasCrc = false then some Detail.badParam
      else if e.target.toNat < stop k then some Detail.badSegmentOrder
      else none
    (listFault verify 0 list = none ↔ ∀ (k : Nat) (e : Segment), list[k]? = some e → fault k e = none) ∧
    ∀ d : Detail, listFault verify 0 list = some d ↔
      ∃ (k : Nat) (e : Segment), list[k]? = some e ∧ fault k e = some d ∧
        ∀ (m : Nat) (x : Segment), m < k → list[m]? = some x → fault m x = none

/-- The end of a list read. The abort mark decides first: RETIRING with status ABORTED and empty masks. Else a failed
read gives HOST_ERROR and a bad list INVALID with its detail: the completion enters the holding queue and the slot is
FREE; with the holding queue full or others waiting, the job stays in INTAKE with its slot and its reservations, its
ring in intake, and joins the wait list once. A good list whose lanes all have jobs before it is QUEUED at the tail of
each lane's queue. In FAULT, or with no list read in flight, the end is discarded. The model's choices in it: log 2. -/
def Obligations.ListReadEndPlacesOrCompletes : Prop :=
  ∀ (s : State) (n : SlotId) (j : Job) (bytes : List Byte), s.slot n = some j → bytes.length = 24 * j.spec.listCount →
    (s.ctl.device = .fault ∨ j.state ≠ .intake ∨ j.listRead = false →
      exec (.listReadEnd .live n (.good bytes)) s = .next s ∧ exec (.listReadEnd .live n .failed) s = .next s) ∧
    (s.ctl.device ≠ .fault → j.state = .intake → j.listRead = true →
      (j.abortMark = true → ∀ r : HostRead, r = .failed ∨ r = .good bytes →
        ∃ t : State, exec (.listReadEnd .live n r) s = .next t ∧
          t.slot n = some { j with
            state := .retiring, listRead := false
            final := some { status := .aborted, okMask := 0, failMask := 0 } } ∧
          (∀ m : SlotId, m ≠ n → t.slot m = s.slot m) ∧ (t.ring j.ring).inIntake = false ∧
          t.lanes = s.lanes ∧ t.ctl = s.ctl ∧ t.pool = s.pool ∧ t.creds = s.creds ∧ t.supply = s.supply) ∧
      (j.abortMark = false → s.holdingOpen → ∀ (r : HostRead) (st : Status) (d : Detail),
        (r = .failed ∧ st = .hostError ∧ d = .none) ∨
          (r = .good bytes ∧ st = .invalid ∧
            listFault (j.spec.params.kind == .verify) 0 (parseList j.spec.listCount bytes) = some d) →
        ∃ (t : State) (more : List HeldRecord), exec (.listReadEnd .live n r) s = .next t ∧ t.slot n = none ∧
          t.writer.holding = s.writer.holding ++ .intake
            { ring := j.ring, tag := j.spec.tag, status := st, detail := d, irqNow := j.spec.flags.getLsbD 0 } :: more ∧
          (t.ring j.ring).inIntake = false ∧ t.lanes = s.lanes ∧ t.ctl = s.ctl ∧ t.pool = s.pool ∧
          t.creds = s.creds ∧ t.supply = s.supply) ∧
      (j.abortMark = false → ¬ s.holdingOpen → ∀ (r : HostRead) (st : Status) (d : Detail),
        (r = .failed ∧ st = .hostError ∧ d = .none) ∨
          (r = .good bytes ∧ st = .invalid ∧
            listFault (j.spec.params.kind == .verify) 0 (parseList j.spec.listCount bytes) = some d) →
        exec (.listReadEnd .live n r) s = .next { s with
          slots := s.slots.set n.val (some { j with listRead := false, intakeEnd := some (st, d) })
          writer :=
            { s.writer with waitList :=
              s.writer.waitList ++ if .intakeJob n ∈ s.writer.waitList then [] else [.intakeJob n] } }) ∧
      (j.abortMark = false →
        listFault (j.spec.params.kind == .verify) 0 (parseList j.spec.listCount bytes) = none →
        (j.spec.params = .program ∨ j.spec.params = .verify ∨ j.spec.params = .erase) →
        (∀ i : LaneId, inSet j.spec.lanes i = true → (s.lane i).queue ≠ []) →
        ∃ t : State, exec (.listReadEnd .live n (.good bytes)) s = .next t ∧
          t.slot n = some { j with
            state := .queued, listRead := false, list := parseList j.spec.listCount bytes } ∧
          (∀ m : SlotId, m ≠ n → t.slot m = s.slot m) ∧
          (∀ i : LaneId, t.lane i =
            if inSet j.spec.lanes i then { s.lane i with queue := (s.lane i).queue ++ [n] } else s.lane i) ∧
          t.ring j.ring = { s.ring j.ring with inIntake := false } ∧ t.ctl = s.ctl ∧ t.pool = s.pool ∧
          t.creds = s.creds ∧ t.supply = s.supply ∧ t.writer = s.writer))

/-! ### Placement and take-up (R32, R34, R43, R132) -/

/-- An ATTACH of any set of lanes, one of which at least has an empty queue, is placed and taken up in the happening of
its claim: the job is ACTIVE in the lowest FREE slot, and joins the queue of every lane that has jobs before it. On each
lane with an empty queue the window is stored, any session ends, and the lane is in POWERING with its switch on when it
was off, or in RESETTING when it was on; the outputs that change do so in the order MODE, RESET, POWER. Every other lane
is untouched. The model's choices in it: log 7, log 40. -/
def Obligations.AttachIsTakenUpOnIdleLanes : Prop :=
  ∀ (s : State) (r : RingId) (bytes : List Byte) (j : JobSpec) (p : AttachParams) (n : SlotId),
    s.recordTaken r bytes j → j.params = .attach p → s.lowestFree n →
    (∀ i : LaneId, inSet j.lanes i = true → s.placesTaken i < 4) →
    (∃ i : LaneId, inSet j.lanes i = true ∧ (s.lane i).queue = []) →
    ∃ t : State, exec (.recordReadEnd .live (.good bytes)) s = .next t ∧
      t.slot n = some { newJob r j with state := .active } ∧ (∀ m : SlotId, m ≠ n → t.slot m = s.slot m) ∧
      t.ring r = { s.ring r with
        consumer := ((s.ring r).consumer + 1) % (s.ring r).size, held := none, blocked := .none, inIntake := false } ∧
      t.intake.engine = .free ∧ t.ctl = s.ctl ∧ t.pool = s.pool ∧ t.supply = s.supply ∧ t.writer = s.writer ∧
      (∀ k : LaneId, inSet j.lanes k = false → t.lane k = s.lane k) ∧
      (∀ k : LaneId, inSet j.lanes k = true → (s.lane k).queue ≠ [] →
        t.lane k = { s.lane k with queue := (s.lane k).queue ++ [n] }) ∧
      ∀ i : LaneId, inSet j.lanes i = true → (s.lane i).queue = [] →
        (t.lane i).queue = [n] ∧ (t.lane i).step = .attachPhase ∧ (t.lane i).identity = none ∧
        (t.lane i).unlocked = false ∧ (t.lane i).pinned = none ∧ (t.lane i).faultCode = none ∧
        (t.lane i).attempts = 0 ∧ (t.lane i).vmin = p.vmin ∧ (t.lane i).vmax = p.vmax ∧ (t.lane i).outOfWindow = 0 ∧
        (t.lane i).lastSample = (s.lane i).lastSample ∧ (t.lane i).pendingEvent = (s.lane i).pendingEvent ∧
        (t.lane i).resetPin = true ∧ (t.lane i).power = true ∧
        ((s.lane i).power = false → (t.lane i).state = .powering ∧ (t.lane i).modePin = false ∧
          (t.lane i).powerSettle = some p.powerSettle ∧ (t.lane i).checkCount = 0 ∧
          (t.lane i).outputs = (s.lane i).outputsAfter (some false) (some true) (some true)) ∧
        ((s.lane i).power = true → (t.lane i).state = .resetting ∧ (t.lane i).modePin = true ∧
          (t.lane i).resetPulse = some p.resetPulse ∧
          (t.lane i).outputs = (s.lane i).outputsAfter (some true) (some true) none)

/-- The four pre-checks of a job in a session, in their order, and the first that fails decides: the unlocked flag clear
gives NOT_UNLOCKED; a protection level that refuses a request of the job gives PROTECTED; the first range of flash, in
list order, that does not lie in flash gives RANGE with its address; the first whose address or length is not aligned as
the kind requires gives ALIGN with its address. None is given a NAK reason or a request kind. -/
def Obligations.PreChecksInOrder : Prop :=
  ∀ (d : Identity) (unlocked : Bool) (j : Job),
    let kind := j.spec.params.kind
    let level := d.level.toNat
    let base := d.flashBase.toNat
    let whole := kind = .erase ∧ j.spec.flags.getLsbD 2 = true
    let refused := ((kind = .program ∨ kind = .verify ∨ kind = .readback ∨ (kind = .erase ∧ ¬ whole)) ∧ 1 ≤ level) ∨
      ((kind = .protect ∨ whole) ∧ 2 ≤ level)
    let outside := fun e : BitVec 32 × Nat => e.1.toNat < base ∨ base + d.flashSize.toNat < e.1.toNat + e.2
    let misaligned := fun e : BitVec 32 × Nat =>
      (kind = .erase ∧ ((e.1.toNat - base) % d.sectorSize.toNat ≠ 0 ∨ e.2 % d.sectorSize.toNat ≠ 0)) ∨
      (kind = .program ∧ (e.1.toNat % d.granule.toNat ≠ 0 ∨ e.2 % d.granule.toNat ≠ 0))
    let fails := fun (o : LaneOutcome) (a : Option (BitVec 32)) =>
      preCheck d unlocked j = some { outcome := o, nak := none, kind := none, addr := a }
    (unlocked = false → fails .notUnlocked none) ∧
    (unlocked = true → refused → fails .guarded none) ∧
    ∀ ranges : List (BitVec 32 × Nat),
      (kind = .program ∨ kind = .verify ∨ (kind = .erase ∧ ¬ whole) → ranges = j.list.map (fun e => (e.target, e.length))) →
      (∀ (target : BitVec 32) (len stride : Nat) (dest : BitVec 64), j.spec.params = .readback target len dest stride →
        ranges = [(target, len)]) →
      (kind = .protect ∨ whole → ranges = []) →
      (kind = .program ∨ kind = .verify ∨ kind = .erase ∨ kind = .readback ∨ kind = .protect) →
      unlocked = true → ¬ refused →
        (∀ (k : Nat) (e : BitVec 32 × Nat), ranges[k]? = some e → outside e →
          (∀ (m : Nat) (x : BitVec 32 × Nat), m < k → ranges[m]? = some x → ¬ outside x) → fails .range (some e.1)) ∧
        ((∀ e ∈ ranges, ¬ outside e) →
          (∀ (k : Nat) (e : BitVec 32 × Nat), ranges[k]? = some e → misaligned e →
            (∀ (m : Nat) (x : BitVec 32 × Nat), m < k → ranges[m]? = some x → ¬ misaligned x) →
            fails .align (some e.1)) ∧
          ((∀ e ∈ ranges, ¬ misaligned e) → preCheck d unlocked j = none))

/-- A lane job other than ATTACH that is placed on one lane with an empty queue is taken up in that happening. An ERASE,
PROGRAM, VERIFY, READBACK or PROTECT ends at once with LANE_FAULTED on a FAULTED lane and with NOT_ATTACHED on one in
OFF or RELEASED, and on a READY one with the verdict of a pre-check that fails; a DETACH with RUN ends at once with
NOT_ATTACHED on a lane in OFF, RELEASED or FAULTED. The job is then RETIRING with FAILED and counters of 0, and the
lane's state, pins and session stay. On a READY lane whose pre-checks pass the first request goes out: PROTECT, the READ
of up to 128 bytes, the SUM of the first segment, the ERASE of the whole flash, of the first region or of the sectors
that cover the first segment, or START; a PROGRAM fills its window first, and without ERASE_BEFORE waits for its first
block. With a readback host write that an ended job left in flight the lane stands in that first step, and sends
nothing. The model's choices in it: log 39. -/
def Obligations.JobsAreTakenUpOnAnIdleLane : Prop :=
  ∀ (s : State) (c : Instr) (n : SlotId) (j : Job) (i : LaneId),
    s.places c n j → j.spec.lanes = laneBit i → (s.lane i).queue = [] →
    let l := s.lane i
    let kind := j.spec.params.kind
    let run := kind = .detach ∧ j.spec.flags.getLsbD 1 = true
    let inSession := kind = .erase ∨ kind = .program ∨ kind = .verify ∨ kind = .readback ∨ kind = .protect
    let ends := fun (o : LaneOutcome) (a : Option (BitVec 32)) => ∃ (t : State) (b : Job), exec c s = .next t ∧
      t.slot n = some b ∧ b.state = .retiring ∧
      b.final = some { status := .failed, okMask := 0, failMask := j.spec.lanes } ∧
      t.resultOf n i = some { outcome := o, nak := none, kind := none, addr := a, sample := l.lastSample
                              body := .counters 0 0 0 0 } ∧
      t.lane i = { l.taking n with queue := [] } ∧ (∀ m : LaneId, m ≠ i → t.lane m = s.lane m) ∧
      (∀ m : SlotId, m ≠ n → t.slot m = s.slot m) ∧ t.ctl = s.ctl ∧ t.creds = s.creds ∧ t.supply = s.supply
    let goesOn := fun (p : Pool) (x : Lane) => ∃ t : State, exec c s = .next t ∧
      t.slot n = some { j with state := .active } ∧ t.lane i = x ∧ (∀ m : LaneId, m ≠ i → t.lane m = s.lane m) ∧
      (∀ m : SlotId, m ≠ n → t.slot m = s.slot m) ∧ t.ctl = s.ctl ∧ t.pool = p ∧ t.creds = s.creds ∧
      t.supply = s.supply ∧ t.writer = s.writer
    -- the request goes out, or waits in its step for the write that an ended job has left in flight
    let sends := fun (p : Pool) (st : Step) (kind : ReqKind) (payload : List Byte) =>
      (s.mayRequest i → goesOn p (Lane.withRequest { l.taking n with step := st } kind payload)) ∧
      (l.readback ≠ none → goesOn p { l.taking n with step := st })
    (inSession → l.state = .faulted → ends .laneFaulted none) ∧
    (inSession → l.state = .off ∨ l.state = .released → ends .notAttached none) ∧
    (run → l.state = .off ∨ l.state = .released ∨ l.state = .faulted → ends .notAttached none) ∧
    (∀ e : BitVec 32, run → l.state = .ready → j.spec.params = .detach e →
      sends s.pool .detachStart .start (beBytes 4 e.toNat)) ∧
    ∀ d : Identity, l.state = .ready → l.identity = some d →
      (∀ v : Verdict, inSession → preCheck d l.unlocked j = some v → ends v.outcome v.addr) ∧
      (preCheck d l.unlocked j = none →
        (∀ level : BitVec 8, j.spec.params = .protect level → sends s.pool .protect .protect [level]) ∧
        (∀ (target : BitVec 32) (len stride : Nat) (dest : BitVec 64), j.spec.params = .readback target len dest stride →
          sends s.pool (.readbackRead 0) .read (beBytes 4 target.toNat ++ beBytes 2 (min 128 len))) ∧
        (kind = .erase → j.spec.flags.getLsbD 2 = true →
          sends s.pool .eraseAll .erase (beBytes 4 d.flashBase.toNat ++ [0])) ∧
        ∀ (g : Segment) (rest : List Segment), j.list = g :: rest →
          (kind = .verify → sends s.pool (.verifySum 0) .sum (beBytes 4 g.target.toNat ++ beBytes 4 g.length)) ∧
          (kind = .erase → j.spec.flags.getLsbD 2 = false → sends s.pool (.eraseRegion 0 0) .erase
            (beBytes 4 g.target.toNat ++ [BitVec.ofNat 8 (min 255 (g.length / d.sectorSize.toNat))])) ∧
          (kind = .program → (∀ (b : BlockId) (x : Block), s.pool.block b = some x → x.slot ≠ n) →
            let filled := (keysFrom j.list 7 (0, 0)).foldl (Pool.want n j.list i) s.pool
            let first := (g.target.toNat - d.flashBase.toNat) / d.sectorSize.toNat
            let last := (g.target.toNat + g.length - 1 - d.flashBase.toNat) / d.sectorSize.toNat
            (j.spec.flags.getLsbD 3 = false → goesOn filled { l.taking n with step := .programWrite 0 }) ∧
            (j.spec.flags.getLsbD 3 = true → 0 < d.sectorSize.toNat → sends filled (.programErase 0) .erase
              (beBytes 4 (d.flashBase.toNat + first * d.sectorSize.toNat) ++
                [BitVec.ofNat 8 (min 255 (last + 1 - first))]))))

/-- A DETACH without RUN on one idle lane is finished in the happening of its claim, whatever state the lane is in: MODE
deasserted, RESET asserted, power off, in this order, session and fault code cleared, the lane OFF with outcome OK, and
the window and last sample kept. The model's choices in it: log 40. -/
def Obligations.DetachPowersTheLaneDown : Prop :=
  ∀ (s : State) (r : RingId) (bytes : List Byte) (j : JobSpec) (entry : BitVec 32) (n : SlotId) (i : LaneId),
    s.recordTaken r bytes j → j.params = .detach entry → j.flags.getLsbD 1 = false → j.lanes = laneBit i →
    s.lowestFree n → (s.lane i).queue = [] → s.placesTaken i < 4 →
    ∃ t : State, exec (.recordReadEnd .live (.good bytes)) s = .next t ∧
      t.outcomeOf n i = some .ok ∧ (∀ m : SlotId, m ≠ n → t.slot m = s.slot m) ∧
      (∃ b : Job, t.slot n = some b ∧ b.state = .retiring ∧
        b.final = some { status := .success, okMask := j.lanes, failMask := 0 }) ∧
      t.ctl = s.ctl ∧ (∀ k : LaneId, k ≠ i → t.lane k = s.lane k) ∧
      (t.lane i).state = .off ∧ (t.lane i).modePin = false ∧ (t.lane i).resetPin = true ∧ (t.lane i).power = false ∧
      (t.lane i).outputs = (s.lane i).outputsAfter (some false) (some true) (some false) ∧
      (t.lane i).identity = none ∧ (t.lane i).unlocked = false ∧ (t.lane i).pinned = none ∧
      (t.lane i).outstanding = none ∧ (t.lane i).faultCode = none ∧ (t.lane i).queue = [] ∧
      (t.lane i).pendingEvent = (s.lane i).pendingEvent ∧
      (t.lane i).vmin = (s.lane i).vmin ∧ (t.lane i).vmax = (s.lane i).vmax ∧
      (t.lane i).lastSample = (s.lane i).lastSample

/-! ### Aborts (R145 to R149) -/

/-- An ABORT that finds no slot job with its ring and tag, or one in RETIRING, completes NOT_FOUND and changes nothing
else; one that finds a job in INTAKE with its list read in flight completes DONE and sets the abort mark in its slot. An
ABORT that finds a job ACTIVE on its only lane. With a request outstanding, and an identity record or a job other than
an ATTACH, the abort is pending: only the mark is set. With none outstanding the lane's part ends with ABORTED at once
and the job is RETIRING; the lane keeps its state, its pins, its session and a readback write in flight. An ATTACH
before identity leaves the lane OFF with MODE deasserted, RESET asserted and its power off, in this order. The model's
choices in it: log 40. -/
def Obligations.AbortLookupEffects : Prop :=
  (∀ (s : State) (r : RingId) (bytes : List Byte) (j : JobSpec) (ring : RingId) (tag : BitVec 16),
    s.recordTaken r bytes j → j.params = .abort ring tag → s.holdingOpen →
    let c : Status → IntakeCompletion := fun st =>
      { ring := r, tag := BitVec.ofNat 16 (leField bytes 2 2), status := st, detail := .none,
        irqNow := (BitVec.ofNat 16 (leField bytes 6 2)).getLsbD 0 }
    ((∀ (n : SlotId) (k : Job), s.slot n = some k → k.ring = ring → k.spec.tag = tag → k.state = .retiring ∨
        (k.state = .intake ∧ k.listRead = false)) →
      exec (.recordReadEnd .live (.good bytes)) s = .next (s.withCompletion (c .notFound))) ∧
    (∀ (n : SlotId) (k : Job), s.slot n = some k → k.ring = ring → k.spec.tag = tag → k.state = .intake →
      k.listRead = true → (∀ (m : SlotId) (x : Job), s.slot m = some x → x.ring = ring → x.spec.tag = tag → m = n) →
      exec (.recordReadEnd .live (.good bytes)) s = .next { s.withCompletion (c .done) with
        slots := s.slots.set n.val (some { k with abortMark := true }) })) ∧
  (∀ (s : State) (r : RingId) (bytes : List Byte) (j : JobSpec) (ring : RingId) (tag : BitVec 16) (n : SlotId) (k : Job)
    (i : LaneId),
    s.recordTaken r bytes j → j.params = .abort ring tag → s.holdingOpen →
    s.slot n = some k → k.ring = ring → k.spec.tag = tag → k.state = .active → k.spec.lanes = laneBit i →
    k.results[i.val] = none → (s.lane i).queue = [n] →
    (∀ (m : SlotId) (x : Job), s.slot m = some x → x.ring = ring → x.spec.tag = tag → m = n) →
    let c : IntakeCompletion :=
      { ring := r, tag := BitVec.ofNat 16 (leField bytes 2 2), status := .done, detail := .none,
        irqNow := (BitVec.ofNat 16 (leField bytes 6 2)).getLsbD 0 }
    let early := k.spec.params.kind = .attach ∧ (s.lane i).identity = none
    (¬ early → (s.lane i).outstanding.isSome = true →
      exec (.recordReadEnd .live (.good bytes)) s = .next { s.withCompletion c with
        slots := s.slots.set n.val (some { k with abortMark := true }) }) ∧
    (¬ early → (s.lane i).outstanding = none →
      ∃ (t : State) (b : Job), exec (.recordReadEnd .live (.good bytes)) s = .next t ∧
        t.outcomeOf n i = some .aborted ∧ t.slot n = some b ∧ b.state = .retiring ∧
        b.final = some { status := .aborted, okMask := 0, failMask := k.spec.lanes } ∧
        t.lane i = { s.lane i with queue := [], step := .none } ∧
        (∀ m : LaneId, m ≠ i → t.lane m = s.lane m) ∧ t.ctl = s.ctl ∧ t.supply = s.supply ∧ t.creds = s.creds) ∧
    (early →
      ∃ (t : State) (b : Job), exec (.recordReadEnd .live (.good bytes)) s = .next t ∧
        t.outcomeOf n i = some .aborted ∧ t.slot n = some b ∧ b.state = .retiring ∧
        (t.lane i).state = .off ∧ (t.lane i).modePin = false ∧ (t.lane i).resetPin = true ∧
        (t.lane i).power = false ∧
        (t.lane i).outputs = (s.lane i).outputsAfter (some false) (some true) (some false) ∧ (t.lane i).outstanding = none ∧ (t.lane i).queue = [] ∧
        (t.lane i).powerSettle = none ∧ (t.lane i).checkWait = none ∧ (t.lane i).resetPulse = none ∧
        (t.lane i).bootSettle = none ∧ (t.lane i).training = none ∧
        (∀ m : LaneId, m ≠ i → t.lane m = s.lane m) ∧ t.ctl = s.ctl))

/-- An ABORT that finds a BARRIER WAITING empties its wait set: it is RETIRING with ABORTED and empty masks, and its
ring's barrier pending is clear. One that finds a job QUEUED gives ABORTED to every lane of its set and takes it out of
every queue; the job is RETIRING with ABORTED. One that finds a job ACTIVE on any set of lanes sets its abort mark and
deals with each lane: an outcome already recorded stays; a lane with another job before it gets ABORTED and loses the
job from its queue; a lane with no request outstanding gets ABORTED and keeps its state, its session and a readback
write in flight; a lane with a request outstanding is left as it is, its abort pending. The job is RETIRING with ABORTED
unless a lane is pending. In each case the ABORT's own completion enters the holding queue first. The model's choices in
it: log 7. -/
def Obligations.AbortsReachEveryLane : Prop :=
  ∀ (s : State) (r : RingId) (bytes : List Byte) (j : JobSpec) (ring : RingId) (tag : BitVec 16) (n : SlotId) (k : Job),
    s.recordTaken r bytes j → j.params = .abort ring tag → s.holdingOpen →
    s.slot n = some k → k.ring = ring → k.spec.tag = tag →
    (∀ (m : SlotId) (x : Job), s.slot m = some x → x.ring = ring → x.spec.tag = tag → m = n) →
    let own : IntakeCompletion :=
      { ring := r, tag := BitVec.ofNat 16 (leField bytes 2 2), status := .done, detail := .none,
        irqNow := (BitVec.ofNat 16 (leField bytes 6 2)).getLsbD 0 }
    let emptied : BitVec 16 → FinalStatus := fun m => { status := .aborted, okMask := 0, failMask := m }
    let unseen := fun i : LaneId =>
      ({ outcome := .aborted, nak := none, kind := none, addr := none, sample := (s.lane i).lastSample
         body := if k.spec.params.kind = .attach then .attach none false else .counters 0 0 0 0 } : LaneResult)
    let removed := fun i : LaneId => { s.lane i with queue := (s.lane i).queue.filter (fun m => m != n) }
    let pending := fun i : LaneId => inSet k.spec.lanes i = true ∧ k.results[i.val] = none ∧
      (s.lane i).queue.head? = some n ∧ (s.lane i).outstanding.isSome = true
    k.state = .waiting ∨
      (k.state = .queued ∧ k.spec.lanes ≠ 0 ∧ ∀ i : LaneId, inSet k.spec.lanes i = true →
        k.results[i.val] = none ∧ (s.lane i).queue.head? ≠ some n) ∨
      (k.state = .active ∧ ∀ i : LaneId, inSet k.spec.lanes i = true → k.results[i.val] = none →
        (s.lane i).queue.head? = some n →
        (s.lane i).queue = [n] ∧ (k.spec.params.kind = .attach → (s.lane i).identity ≠ none)) →
      ∃ (t : State) (b : Job) (more : List HeldRecord), exec (.recordReadEnd .live (.good bytes)) s = .next t ∧
        t.slot n = some b ∧ (∀ m : SlotId, m ≠ n → t.slot m = s.slot m) ∧ t.ctl = s.ctl ∧
        t.writer.holding = s.writer.holding ++ .intake own :: more ∧
        (k.state = .waiting → b = { k with state := .retiring, waitSet := [], final := some (emptied 0) } ∧
          (t.ring ring).barrierPending = false ∧ t.lanes = s.lanes ∧ t.pool = s.pool ∧ t.creds = s.creds ∧
          t.supply = s.supply) ∧
        (k.state = .queued → b.state = .retiring ∧ b.final = some (emptied k.spec.lanes) ∧
          (∀ i : LaneId, t.lane i = if inSet k.spec.lanes i then removed i else s.lane i) ∧
          (∀ i : LaneId, inSet k.spec.lanes i = true → t.resultOf n i = some (unseen i)) ∧
          t.pool = s.pool ∧ t.creds = s.creds ∧ t.supply = s.supply) ∧
        (k.state = .active → b.abortMark = true ∧ t.creds = s.creds ∧ t.supply = s.supply ∧
          ((∃ i : LaneId, pending i) → b.state = .active) ∧
          ((¬ ∃ i : LaneId, pending i) → (∃ i : LaneId, inSet k.spec.lanes i = true ∧ k.results[i.val] = none) →
            b.state = .retiring ∧ ∃ f : FinalStatus, b.final = some f ∧ f.status = .aborted) ∧
          ∀ i : LaneId,
            (inSet k.spec.lanes i = false ∨ k.results[i.val] ≠ none ∨ pending i →
              t.lane i = s.lane i ∧ t.resultOf n i = k.results[i.val]) ∧
            (inSet k.spec.lanes i = true → k.results[i.val] = none → (s.lane i).queue.head? ≠ some n →
              t.lane i = removed i ∧ t.resultOf n i = some (unseen i)) ∧
            (inSet k.spec.lanes i = true → k.results[i.val] = none → (s.lane i).queue.head? = some n →
              (s.lane i).outstanding = none →
              t.lane i = { s.lane i with queue := [], step := .none } ∧
              t.outcomeOf n i = some .aborted))

/-! ### Completions and interrupts (R135 to R143) -/

/-- HOLDING_QUEUE_ENTRY: the candidate at the front of the wait list takes a free place: a RETIRING job, the intake
engine's completion (with its ring's consumer index), a lane's pending event, which becomes absent, or the completion of
a job in INTAKE whose list failed or is bad: its ring is no longer in intake, its slot is FREE and its reservations are
released. With nothing waiting, no place free, or in FAULT, nothing happens. The end of a completion record's write,
good, for a completion at intake or a lane event, which hold no slot, with none waiting and no drain
(RecordWriteEndFreesTheSlot has every other case): the tail advances and the phase inverts at the wrap, one more entry
is unreleased, the record leaves the holding queue, and the coalescing state takes it, with a CQ signal when the
threshold is reached, the delay is 0 or the record carries IRQ_NOW. COALESCING_DELAY_EXPIRY makes a CQ signal: the CQ
bit is set, with a message when it is enabled and was clear, the count becomes 0 and the timer stops; with the timer
stopped nothing happens. The model's choices in it: log 2, log 5, log 15, log 36. -/
def Obligations.RecordsEnterAndLeaveTheHoldingQueue : Prop :=
  (∀ s : State,
    (s.writer.waitList = [] ∨ 8 ≤ s.writer.holding.length ∨ s.ctl.device = .fault →
      exec .holdingQueueEntry s = .next s) ∧
    (s.ctl.device ≠ .fault → s.writer.holding.length < 8 →
      (∀ (n : SlotId) (rest : List Candidate), s.writer.waitList = .job n :: rest →
        exec .holdingQueueEntry s = .next { s with writer :=
          { s.writer with holding := s.writer.holding ++ [.job n], waitList := rest } }) ∧
      (∀ (c : IntakeCompletion) (rest : List Candidate), s.writer.waitList = .engine :: rest →
        s.intake.engine = .waiting c →
        exec .holdingQueueEntry s = .next
          (State.withCompletion { s with writer := { s.writer with waitList := rest } } c)) ∧
      (∀ (i : LaneId) (e : LaneEvent) (rest : List Candidate), s.writer.waitList = .laneEvent i :: rest →
        (s.lane i).pendingEvent = some e →
        exec .holdingQueueEntry s = .next { s with
          lanes := s.lanes.set i.val { s.lane i with pendingEvent := none }
          writer := { s.writer with holding := s.writer.holding ++ [.event i e], waitList := rest } }) ∧
      (∀ (n : SlotId) (x : HeldRecord) (rest : List Candidate), s.writer.waitList = .intakeJob n :: rest →
        s.recordFor (.intakeJob n) = some x →
        ∃ t : State, exec .holdingQueueEntry s = .next t ∧
          s.frees t (fun m => m == n) (s.writer.holding ++ [x]) rest ∧ s.entersFrom t (some (.intakeJob n)) [n] ∧
          t.ctl = s.ctl ∧ t.pool = s.pool ∧ t.creds = s.creds ∧ t.supply = s.supply ∧
          t.writer.ring = s.writer.ring ∧ t.writer.txn = s.writer.txn ∧ t.writer.count = s.writer.count ∧
          t.writer.delayTimer = s.writer.delayTimer))) ∧
  ((∀ (s : State) (o : HostWriteOut) (h : HeldRecord) (irqNow : Bool) (rest : List HeldRecord)
    (k : Settings), s.writer.txn = some (.completion o) → s.writer.holding = h :: rest → s.writer.waitList = [] →
    (∃ c : IntakeCompletion, h = .intake c ∧ irqNow = c.irqNow) ∨
      (∃ (i : LaneId) (e : LaneEvent), h = .event i e ∧ irqNow = false) →
    s.ctl.inForce = some k → s.ctl.device ≠ .quiescing →
    let r := s.writer.ring
    let signal := k.threshold ≤ s.writer.count + 1 ∨ k.delay = 0 ∨ irqNow = true
    let ring : CompletionRing :=
      { r with
        tail := if r.tail + 1 = r.size then 0 else r.tail + 1
        phase := if r.tail + 1 = r.size then !r.phase else r.phase
        unreleased := r.unreleased + 1 }
    (signal → exec (.completionRecordWriteEnd .live .good) s = .next { s with
      ctl := { s.ctl with
        irq := { s.ctl.irq with cq := true }
        messages := s.ctl.messages + (if k.mask.cq && !s.ctl.irq.cq then 1 else 0) }
      writer := { s.writer with ring := ring, holding := rest, txn := none, count := 0, delayTimer := none } }) ∧
    (¬ signal → exec (.completionRecordWriteEnd .live .good) s = .next { s with
      writer := { s.writer with
        ring := ring, holding := rest, txn := none, count := s.writer.count + 1
        delayTimer := if s.writer.count = 0 then some k.delay else s.writer.delayTimer } })) ∧
  (∀ s : State,
    (s.writer.delayTimer.isSome = true → exec .coalescingDelayExpiry s = .next { s with
      ctl := { s.ctl with
        irq := { s.ctl.irq with cq := true }
        messages := s.ctl.messages + (if s.mask.cq && !s.ctl.irq.cq then 1 else 0) }
      writer := { s.writer with count := 0, delayTimer := none } }) ∧
    (s.writer.delayTimer = none → exec .coalescingDelayExpiry s = .next s)))

/-- COMPLETION_TRANSACTION_START. With a free entry, no transaction in hand and the device neither ENABLING nor in
FAULT, a head job with a result address has one write for each lane of its set with a result, in ascending lane order,
each of 32 bytes at result address + 32 × ordinal; any other head, a job whose masks are empty among them, as one
aborted in INTAKE, has its completion record written at once at base + 16 × tail. Without these conditions nothing
happens. RESULT_RECORD_WRITE_END, good: the write is done; with the last one the completion record is written with the
phase, tail and consumer index as they then stand, unless the device is ENABLING or in FAULT. The model's choices in it:
log 2, log 4, log 34. -/
def Obligations.TransactionWritesTheHeadRecord : Prop :=
  (∀ s : State,
    (s.writer.holding = [] ∨ s.writer.txn.isSome = true ∨ s.writer.ring.size ≤ s.writer.ring.unreleased ∨
        s.ctl.device = .enabling ∨ s.ctl.device = .fault → exec .completionTransactionStart s = .next s) ∧
    (∀ (h : HeldRecord) (rest : List HeldRecord), s.writer.holding = h :: rest → s.writer.txn = none →
      s.writer.ring.unreleased < s.writer.ring.size → s.ctl.device ≠ .enabling → s.ctl.device ≠ .fault →
      ((∀ (n : SlotId) (k : Job), h = .job n → s.slot n = some k → k.spec.resultAddr = 0) →
        (∀ n : SlotId, h = .job n → s.slot n ≠ none) →
        exec .completionTransactionStart s = .next { s with writer := { s.writer with txn := some (.completion
          { addr := s.writer.ring.base + BitVec.ofNat 64 (16 * s.writer.ring.tail), bytes := (recordOf s h).bytes }) } }) ∧
      (∀ (n : SlotId) (k : Job) (f : FinalStatus), h = .job n → s.slot n = some k → k.final = some f →
        f.okMask ||| f.failMask = 0 →
        exec .completionTransactionStart s = .next { s with writer := { s.writer with txn := some (.completion
          { addr := s.writer.ring.base + BitVec.ofNat 64 (16 * s.writer.ring.tail), bytes := (recordOf s h).bytes }) } }) ∧
      (∀ (n : SlotId) (k : Job) (f : FinalStatus), h = .job n → s.slot n = some k → k.spec.resultAddr ≠ 0 →
        k.final = some f → f.okMask ||| f.failMask = k.spec.lanes → k.spec.lanes ≠ 0 →
        (∀ i : LaneId, inSet k.spec.lanes i = true → k.results[i.val] ≠ none) →
        ∃ ws : List ResultWrite,
          exec .completionTransactionStart s = .next { s with writer := { s.writer with txn := some (.results ws) } } ∧
          ws.map ResultWrite.lane = allLanes.filter (inSet k.spec.lanes) ∧
          ∀ w ∈ ws, ∃ x : LaneResult, k.results[w.lane.val] = some x ∧ w.out.bytes = resultRecord w.lane x ∧
            w.out.bytes.length = 32 ∧
            w.out.addr = k.spec.resultAddr + BitVec.ofNat 64
              (32 * (allLanes.filter (fun m => inSet k.spec.lanes m && m.val < w.lane.val)).length)))) ∧
  (∀ (s : State) (i : LaneId) (ws : List ResultWrite) (h : HeldRecord) (rest : List HeldRecord),
    s.writer.txn = some (.results ws) → s.writer.holding = h :: rest →
    ((∃ w ∈ ws, w.lane = i) → (∃ w ∈ ws, w.lane ≠ i) →
      exec (.resultRecordWriteEnd .live i .good) s = .next { s with writer :=
        { s.writer with txn := some (.results (ws.filter (fun w => w.lane != i))) } }) ∧
    ((∃ w ∈ ws, w.lane = i) → (∀ w ∈ ws, w.lane = i) → s.ctl.device ≠ .enabling → s.ctl.device ≠ .fault →
      exec (.resultRecordWriteEnd .live i .good) s = .next { s with writer :=
        { s.writer with txn := some (.completion
          { addr := s.writer.ring.base + BitVec.ofNat 64 (16 * s.writer.ring.tail)
            bytes := (recordOf s h).bytes }) } }) ∧
    ((∃ w ∈ ws, w.lane = i) → (∀ w ∈ ws, w.lane = i) → s.ctl.device = .enabling ∨ s.ctl.device = .fault →
      exec (.resultRecordWriteEnd .live i .good) s = .next { s with writer :=
        { s.writer with txn := some (.results []) } }) ∧
    ((∀ w ∈ ws, w.lane ≠ i) → exec (.resultRecordWriteEnd .live i .good) s = .next s))

/-- The end, good, of any record's completion record write, whatever waits and in every device state. The tail advances,
the phase inverts at the wrap, and one more entry is unreleased; the coalescing state takes the record, with a CQ signal
when the threshold is reached, the delay is 0 or the record carries IRQ_NOW, a slot job's own flag among them; the
record leaves the holding queue, and the front of the wait list takes its place, but in FAULT none does. The slot of a
job whose record it is, and that of a job completed from INTAKE that takes the place, is FREE: it leaves every wait set,
and no ring is held on SLOT any longer; a BARRIER whose wait set empties with it retires with status SUCCESS and is
offered. When the drain of QUIESCING is complete with it, the device is HALTED with the HALT bit of IRQ. One message at
most is sent. The model's choices in it: log 5, log 15, log 36. -/
def Obligations.RecordWriteEndFreesTheSlot : Prop :=
  ∀ (s : State) (o : HostWriteOut) (h : HeldRecord) (rest : List HeldRecord) (k : Settings),
    s.writer.txn = some (.completion o) → s.writer.holding = h :: rest → s.ctl.inForce = some k →
    let r := s.writer.ring
    let irqNow : Bool :=
      match h with
      | .job n => (s.slot n).any (fun j => j.spec.flags.getLsbD 0)
      | .intake c => c.irqNow
      | .event _ _ => false
    let signal : Bool := decide (k.threshold ≤ s.writer.count + 1) || decide (k.delay = 0) || irqNow
    -- the front of the wait list takes the place that the record leaves
    let room : Bool := s.ctl.device != .fault && decide (rest.length < 8)
    let front : Option Candidate :=
      if room then s.writer.waitList.head?.filter (fun c => (s.recordFor c).isSome) else none
    let waits : List Candidate := if room then s.writer.waitList.tail else s.writer.waitList
    let freed : SlotId → Bool := fun m => h == .job m || front == some (.intakeJob m)
    ∃ t : State, exec (.completionRecordWriteEnd .live .good) s = .next t ∧
      t.writer.ring =
        { r with
          tail := if r.tail + 1 = r.size then 0 else r.tail + 1
          phase := if r.tail + 1 = r.size then !r.phase else r.phase
          unreleased := r.unreleased + 1 } ∧
      t.writer.txn = none ∧
      (signal = true → t.writer.count = 0 ∧ t.writer.delayTimer = none) ∧
      (signal = false → t.writer.count = s.writer.count + 1 ∧
        t.writer.delayTimer = if s.writer.count = 0 then some k.delay else s.writer.delayTimer) ∧
      s.frees t freed (rest ++ (front.bind s.recordFor).toList) waits ∧
      s.entersFrom t front (allSlots.filter freed) ∧
      (∃ halts : Bool, (halts = true ↔ s.ctl.device = .quiescing ∧ t.drained) ∧
        t.ctl =
          { s.ctl with
            device := if halts then .halted else s.ctl.device
            irq := { s.ctl.irq with cq := s.ctl.irq.cq || signal, halt := s.ctl.irq.halt || halts }
            messages := s.ctl.messages +
              (if (k.mask.cq && !s.ctl.irq.cq && signal) || (k.mask.halt && !s.ctl.irq.halt && halts) then 1 else 0) }) ∧
      t.pool = s.pool ∧ t.creds = s.creds ∧ t.supply = s.supply

/-- The status of a job and its two masks, from the outcomes of its lanes. -/
def Obligations.JobStatusFromOutcomes : Prop :=
  ∀ j : Job, (∀ i : LaneId, inSet j.spec.lanes i = true → j.outcome i ≠ none) →
    let has := fun (i : LaneId) (o : LaneOutcome) => inSet j.spec.lanes i = true ∧ j.outcome i = some o
    (∀ i : LaneId, inSet j.fixStatus.okMask i = true ↔ has i .ok) ∧
    (∀ i : LaneId, inSet j.fixStatus.failMask i = true ↔ inSet j.spec.lanes i = true ∧ j.outcome i ≠ some .ok) ∧
    (j.fixStatus.status = .aborted ↔ ∃ i : LaneId, has i .aborted) ∧
    (j.fixStatus.status = .success ↔ ∀ i : LaneId, inSet j.spec.lanes i = true → j.outcome i = some .ok) ∧
    (j.fixStatus.status = .partly ↔
      (¬ ∃ i : LaneId, has i .aborted) ∧ (∃ i : LaneId, has i .ok) ∧
        ∃ i : LaneId, inSet j.spec.lanes i = true ∧ j.outcome i ≠ some .ok) ∧
    (j.fixStatus.status = .failed ↔
      (¬ ∃ i : LaneId, has i .aborted) ∧ (¬ ∃ i : LaneId, has i .ok) ∧ j.spec.lanes ≠ 0)

/-- The records that the PL16 writes have their stated sizes and hold their fields at the stated offsets. A result
record names lane, outcome, NAK reason, failing request kind, address and last sample, and in bytes 12 to 31 the
counters, or for an ATTACH the identity record, or zeros where none is held; bits 1 and 2 of byte 8 are the unlocked and
credential-required flags of an ATTACH's identity. A completion record holds the fields of a job, of a completion at
intake or of a lane event, with the phase and the consumer index of its ring as they stand. The codes are those of R168,
11.1 and 11.3. The model's choices in it: log 13. -/
def Obligations.WrittenRecordsHoldTheirFields : Prop :=
  (∀ (i : LaneId) (r : LaneResult),
    let at' := fun off len : Nat => leField (resultRecord i r) off len
    (resultRecord i r).length = 32 ∧ at' 0 1 = i.val ∧ at' 1 1 = r.outcome.code ∧
      at' 2 1 = (match r.nak with | none => 0 | some x => x.code.toNat) ∧
      at' 3 1 = (match r.kind with | none => 0 | some k => k.code.toNat) ∧
      at' 4 4 = (match r.addr with | none => 0 | some a => a.toNat) ∧
      at' 8 1 = (if r.addr.isSome then 1 else 0) + (match r.body with
        | .counters _ _ _ _ => 0
        | .attach none _ => 0
        | .attach (some d) u => (if u then 2 else 0) + (if d.credentialRequired then 4 else 0)) ∧
      at' 9 1 = 0 ∧ (r.sample < 65536 → at' 10 2 = r.sample) ∧
      (∀ a b c d : Nat, r.body = .counters a b c d → a < 2 ^ 32 → b < 2 ^ 32 → c < 2 ^ 32 → d < 2 ^ 32 →
        at' 12 4 = a ∧ at' 16 4 = b ∧ at' 20 4 = c ∧ at' 24 4 = d ∧ at' 28 4 = 0) ∧
      (∀ (d : Identity) (u : Bool), r.body = .attach (some d) u →
        at' 12 2 = d.deviceClass.toNat ∧ at' 14 1 = d.loaderVersion.toNat ∧ at' 15 1 = d.level.toNat ∧
        at' 16 4 = d.flashBase.toNat ∧ at' 20 4 = d.flashSize.toNat ∧ at' 24 4 = d.sectorSize.toNat ∧
        at' 28 1 = d.granule.toNat ∧ at' 29 1 = d.maxWrite.toNat ∧ at' 30 1 = d.attempts.toNat ∧
        at' 31 1 = d.rates.toNat) ∧
      ∀ (u : Bool) (k : Nat), r.body = .attach none u → 12 ≤ k → k < 32 → at' k 1 = 0) ∧
  (∀ r : CompletionRecord, r.kind < 256 → r.ring < 256 → r.status < 256 → r.tag < 65536 → r.detail < 256 →
    r.word8 < 65536 → r.word10 < 65536 → r.consumer < 65536 →
    r.bytes.length = 16 ∧ leField r.bytes 0 1 = (if r.phase then 1 else 0) ∧ leField r.bytes 1 1 = r.kind ∧
      leField r.bytes 2 1 = r.ring ∧ leField r.bytes 3 1 = r.status ∧ leField r.bytes 4 2 = r.tag ∧
      leField r.bytes 6 1 = r.detail ∧ leField r.bytes 7 1 = 0 ∧ leField r.bytes 8 2 = r.word8 ∧
      leField r.bytes 10 2 = r.word10 ∧ leField r.bytes 12 2 = r.consumer ∧ leField r.bytes 14 2 = 0) ∧
  (∀ s : State,
    (∀ (n : SlotId) (k : Job) (f : FinalStatus), s.slot n = some k → k.final = some f →
      recordOf s (.job n) =
        { phase := s.writer.ring.phase, kind := 1, ring := k.ring.val, status := f.status.code
          tag := k.spec.tag.toNat, detail := 0, word8 := f.okMask.toNat, word10 := f.failMask.toNat
          consumer := (s.ring k.ring).consumer }) ∧
    (∀ c : IntakeCompletion, recordOf s (.intake c) =
      { phase := s.writer.ring.phase, kind := 1, ring := c.ring.val, status := c.status.code, tag := c.tag.toNat
        detail := c.detail.code, word8 := 0, word10 := 0, consumer := (s.ring c.ring).consumer }) ∧
    ∀ (i : LaneId) (e : LaneEvent), recordOf s (.event i e) =
      { phase := s.writer.ring.phase, kind := 2, ring := 0, status := e.code.code, tag := i.val, detail := 0
        word8 := e.sample, word10 := 0, consumer := 0 }) ∧
  [LaneOutcome.ok, .aborted, .laneFaulted, .notAttached].map LaneOutcome.code = [0, 1, 2, 3] ∧
  (∀ c : FaultCode, (LaneOutcome.faulted c).code = c.code) ∧
  [FaultCode.noTarget, .noResponse, .targetStalled, .protocol, .rateSwitch, .supplyRange, .brownout, .overcurrent].map
    FaultCode.code = [16, 17, 18, 19, 20, 21, 22, 23] ∧
  [LaneOutcome.targetRefused, .guarded, .notUnlocked, .range, .align, .imageCheck, .verifyMismatch, .hostRead, .hostWrite,
    .noCredential, .authReserve, .authRejected, .rateUnsupported].map LaneOutcome.code =
    [32, 33, 34, 35, 36, 37, 38, 39, 40, 41, 42, 43, 44] ∧
  [Status.success, .partly, .failed, .aborted, .invalid, .dupTag, .hostError, .credentialBusy, .notFound, .done].map
    Status.code = [1, 2, 3, 4, 8, 9, 10, 11, 12, 13] ∧
  [Detail.none, .badKind, .badLanes, .badCount, .badParam, .badAlign, .badSegmentOrder].map Detail.code =
    [0, 1, 2, 3, 4, 5, 6] ∧
  [ReqKind.identify, .unlock, .erase, .write, .read, .sum, .protect, .setRate, .start].map ReqKind.code =
    [1, 2, 3, 4, 5, 6, 7, 8, 9] ∧
  [NakReason.frame, .kind, .range, .align, .locked, .auth, .guarded, .program, .erase, .rate].map NakReason.code =
    [1, 2, 3, 4, 5, 6, 7, 8, 9, 10]

/-! ### The Staging Pool (R77 to R95) -/

/-- STAGING_READ_ISSUE: the read at the front of the fetch queue becomes in flight when fewer than 16 reads are in
flight, those issued before a reset counted, and the device is not in FAULT; else nothing happens. STAGING_READ_END,
good: a block that lanes reference becomes READY with the data; an orphan is freed, its number at the back of the free
list, and its data discarded. For a block with no read in flight nothing happens. When the last block keyed to the slot
of a RETIRING job is freed by its read's end, good or failed, the job is offered: it enters the holding queue at once,
or joins the wait list; until then it is not. The model's choices in it: log 2, log 4. -/
def Obligations.StagingReadsIssueAndEnd : Prop :=
  (∀ s : State,
    (∀ (b : BlockId) (rest : List BlockId) (k : Block), s.pool.fetchQueue = b :: rest → s.pool.block b = some k →
      s.pool.inFlight + s.pool.stale < 16 → s.ctl.device ≠ .fault →
      exec .stagingReadIssue s = .next { s with pool :=
        { s.pool with blocks := s.pool.blocks.set b.val (some { k with state := .inFlight }), fetchQueue := rest } }) ∧
    (s.pool.fetchQueue = [] ∨ 16 ≤ s.pool.inFlight + s.pool.stale ∨ s.ctl.device = .fault →
      exec .stagingReadIssue s = .next s)) ∧
  (∀ (s : State) (b : BlockId) (k : Block) (bytes : List Byte), s.pool.block b = some k →
    (k.state = .inFlight → bytes.length = k.valid → k.refs ≠ 0 →
      exec (.stagingReadEnd .live b (.good bytes)) s = .next { s with pool :=
        { s.pool with blocks := s.pool.blocks.set b.val (some { k with state := .ready bytes }) } }) ∧
    (k.state = .inFlight → bytes.length = k.valid → k.refs = 0 →
      ∃ t : State, exec (.stagingReadEnd .live b (.good bytes)) s = .next t ∧
        t = { s with pool := t.pool, writer := t.writer } ∧ t.pool.block b = none ∧
        t.pool.freeList = s.pool.freeList ++ [b] ∧ t.pool.fetchQueue = s.pool.fetchQueue.filter (fun x => x != b) ∧
        t.pool.stale = s.pool.stale ∧ ∀ a : BlockId, a ≠ b → t.pool.block a = s.pool.block a) ∧
    (k.state ≠ .inFlight → ∀ r : HostRead, exec (.stagingReadEnd .live b r) s = .next s)) ∧
  (∀ (s : State) (b : BlockId) (k : Block) (j : Job) (r : HostRead), s.pool.block b = some k → k.state = .inFlight →
    k.refs = 0 → (r = .failed ∨ ∃ bytes : List Byte, r = .good bytes ∧ bytes.length = k.valid) →
    s.slot k.slot = some j → j.state = .retiring → (∀ i : LaneId, k.slot ∉ (s.lane i).queue) →
    let last := ∀ (a : BlockId) (x : Block), a ≠ b → s.pool.block a = some x → x.slot ≠ k.slot
    let offered := .job k.slot ∈ s.writer.holding ∨ .job k.slot ∈ s.writer.waitList
    ∃ t : State, exec (.stagingReadEnd .live b r) s = .next t ∧ t.pool.block b = none ∧
      (∀ a : BlockId, a ≠ b → t.pool.block a = s.pool.block a) ∧ t.pool.freeList = s.pool.freeList ++ [b] ∧
      t.slot k.slot = some { j with imageFailed := if r = .failed ∧ j.imageFailed = none then some (k.segment, k.index)
                                                   else j.imageFailed } ∧
      (∀ m : SlotId, m ≠ k.slot → t.slot m = s.slot m) ∧ t.lanes = s.lanes ∧ t.ctl = s.ctl ∧ t.creds = s.creds ∧
      t.supply = s.supply ∧ t.intake = s.intake ∧
      (last → ¬ offered → s.holdingOpen →
        t.writer = { s.writer with holding := s.writer.holding ++ [.job k.slot] }) ∧
      (last → ¬ offered → ¬ s.holdingOpen →
        t.writer = { s.writer with waitList := s.writer.waitList ++ [.job k.slot] }) ∧
      (offered ∨ ¬ last → t.writer = s.writer))

/-- A failed image read marks its job image-failed with the failed block, once, and frees the block; the job's only
lane, taken up on it with no request outstanding, gets HOST_READ with the failed block's first byte in the target; a
lane with a request outstanding, or a job already marked, is not changed now. -/
def Obligations.FailedImageReadMarksTheJob : Prop :=
  ∀ (s : State) (b : BlockId) (k : Block) (j : Job) (g : Segment) (i : LaneId),
    s.pool.block b = some k → k.state = .inFlight → s.slot k.slot = some j → j.spec.lanes = laneBit i →
    (s.lane i).queue = [k.slot] → (s.lane i).step ≠ .none → j.results[i.val] = none → j.state = .active →
    j.list[k.segment]? = some g →
    ∃ t : State, exec (.stagingReadEnd .live b .failed) s = .next t ∧ t.ctl = s.ctl ∧
      (∀ m : LaneId, m ≠ i → t.lane m = s.lane m) ∧ t.creds = s.creds ∧ t.supply = s.supply ∧
      t.intake.engine = s.intake.engine ∧ t.pool.block b = none ∧
      (j.imageFailed = none → (s.lane i).outstanding = none →
        (∃ x : LaneResult, t.resultOf k.slot i = some x ∧ x.outcome = .hostRead ∧ x.nak = none ∧ x.kind = none ∧
          x.addr = some (g.target + BitVec.ofNat 32 (128 * k.index))) ∧
        (t.lane i).state = (s.lane i).state ∧ (t.lane i).identity = (s.lane i).identity ∧ (t.lane i).queue = []) ∧
      (j.imageFailed = none → (s.lane i).outstanding.isSome = true →
        t.slot k.slot = some { j with imageFailed := some (k.segment, k.index) } ∧ t.lane i = s.lane i) ∧
      (j.imageFailed.isSome = true → t.slots = s.slots ∧ t.lane i = s.lane i)

/-- A lane window: up to 7 keys, the one at the cursor and those that follow it in the job's image, across segment
boundaries; past the job's last block it is empty. A lookup of one key in a sound pool: a block that carries it gains
the lane, whatever its condition; else the front of the free list is created for the lane alone, waiting at the back of
the fetch queue with the segment's bytes. -/
def Obligations.WindowKeysFollowAndJoin : Prop :=
  (∀ list : List Segment, (∀ e ∈ list, 0 < e.length) →
    (∀ p : Nat, ∀ key : Nat × Nat, (imageKeys list)[p]? = some key →
      keysFrom list 7 key = ((imageKeys list).drop p).take 7) ∧
    ∀ b : Nat, keysFrom list 7 (list.length, b) = []) ∧
  (∀ (p : Pool) (n : SlotId) (list : List Segment) (i : LaneId) (g b : Nat), p.sound →
    (∀ (a : BlockId) (k : Block), p.block a = some k → k.slot = n → k.segment = g → k.index = b →
      Pool.want n list i p (g, b) = { p with blocks := p.blocks.set a.val (some { k with refs := k.refs ||| laneBit i }) }) ∧
    ((∀ (a : BlockId) (k : Block), p.block a = some k → ¬ (k.slot = n ∧ k.segment = g ∧ k.index = b)) →
      ∀ (a : BlockId) (rest : List BlockId) (e : Segment), p.freeList = a :: rest → list[g]? = some e →
        Pool.want n list i p (g, b) =
          { p with
            blocks := p.blocks.set a.val (some
              { slot := n, segment := g, index := b, valid := min 128 (e.length - 128 * b), state := .waiting
                refs := laneBit i })
            freeList := rest
            fetchQueue := p.fetchQueue ++ [a] }))

/-! ### The Supply Monitor (R111 to R118) -/

/-- SUPERVISE_TIMER_EXPIRY: every lane whose switch is on has a SUPERVISE request, and the timer starts again at the
period in force; a stopped timer does not expire. CONVERSION_START: an idle converter takes the CHECK request of the
first lane upward from the one after the last served a CHECK, and only with no CHECK pending the SUPERVISE request found
in the same way; the request leaves the queue and the pointer of its class holds the lane. A busy converter takes
nothing. The model's choices in it: log 2, log 4. -/
def Obligations.ConverterIsServedInTurn : Prop :=
  (∀ s : State,
    (∀ (ms : Nat) (c : Settings), s.supply.timer = some ms → s.ctl.inForce = some c →
      ∃ t : State, exec .superviseTimerExpiry s = .next t ∧
        t = { s with lanes := t.lanes, supply := { s.supply with timer := some c.supervisePeriod } } ∧
        ∀ i : LaneId, t.lane i =
          { s.lane i with supervisePending := (s.lane i).power || (s.lane i).supervisePending }) ∧
    (s.supply.timer = none ∨ s.ctl.inForce = none → exec .superviseTimerExpiry s = .next s)) ∧
  (∀ s : State,
    (∀ k : Fin 16, s.supply.converter = none → (s.lane (s.supply.checkPtr + 1 + k)).checkPending = true →
      (∀ m : Fin 16, m < k → (s.lane (s.supply.checkPtr + 1 + m)).checkPending = false) →
      let i := s.supply.checkPtr + 1 + k
      exec .conversionStart s = .next { s with
        lanes := s.lanes.set i.val { s.lane i with checkPending := false }
        supply := { s.supply with converter := some { lane := i, cls := .check, void := false }, checkPtr := i } }) ∧
    (∀ k : Fin 16, s.supply.converter = none → (∀ i : LaneId, (s.lane i).checkPending = false) →
      (s.lane (s.supply.supervisePtr + 1 + k)).supervisePending = true →
      (∀ m : Fin 16, m < k → (s.lane (s.supply.supervisePtr + 1 + m)).supervisePending = false) →
      let i := s.supply.supervisePtr + 1 + k
      exec .conversionStart s = .next { s with
        lanes := s.lanes.set i.val { s.lane i with supervisePending := false }
        supply :=
          { s.supply with converter := some { lane := i, cls := .supervise, void := false }, supervisePtr := i } }) ∧
    (s.supply.converter.isSome = true ∨
        (∀ i : LaneId, (s.lane i).checkPending = false ∧ (s.lane i).supervisePending = false) →
      exec .conversionStart s = .next s))

/-- A SUPERVISE result, held to 0-6 000 mV, is the lane's last sample and is judged against its window, both ends
included: inside, the count is 0; outside, 1; outside for a second time on a lane that is not FAULTED and has no job,
the count is 2 and the lane is FAULTED with BROWNOUT, RESET asserted before its power is off. A void result changes
nothing but the converter. A CHECK result of a lane in POWERING for its ATTACH: the third one outside the window is lane
fault SUPPLY_RANGE with the power off; the first and second start the 1 ms wait; one inside leads to RESETTING with MODE
and then RESET asserted and the reset pulse running, but in device state FAULT the lane stays in POWERING. The model's
choices in it: log 2, log 22, log 40. -/
def Obligations.ConversionResultsAreJudged : Prop :=
  (∀ (s : State) (c : Conversion) (mv : Int), s.supply.converter = some c →
    let sample := (max 0 (min 6000 mv)).toNat
    let l := s.lane c.lane
    let inside := l.vmin ≤ sample ∧ sample ≤ l.vmax
    let idle : Supply := { s.supply with converter := none }
    (c.void = true → exec (.conversionEnd mv) s = .next { s with supply := idle }) ∧
    (c.void = false → c.cls = .supervise →
      (inside → exec (.conversionEnd mv) s = .next { s with
        supply := idle
        lanes := s.lanes.set c.lane.val { l with lastSample := sample, outOfWindow := 0 } }) ∧
      (¬ inside → l.outOfWindow = 0 → exec (.conversionEnd mv) s = .next { s with
        supply := idle
        lanes := s.lanes.set c.lane.val { l with lastSample := sample, outOfWindow := 1 } }) ∧
      (¬ inside → l.outOfWindow = 1 → l.state ≠ .faulted → l.queue = [] →
        ∃ t : State, exec (.conversionEnd mv) s = .next t ∧
          (t.lane c.lane).state = .faulted ∧ (t.lane c.lane).faultCode = some .brownout ∧
          (t.lane c.lane).power = false ∧ (t.lane c.lane).resetPin = true ∧ (t.lane c.lane).modePin = l.modePin ∧
          (t.lane c.lane).outputs = l.outputsAfter none (some true) (some false) ∧
          (t.lane c.lane).identity = none ∧ (t.lane c.lane).outstanding = none ∧
          (t.lane c.lane).lastSample = sample ∧ (t.lane c.lane).outOfWindow = 2 ∧
          (s.holdingOpen → t.writer.holding =
            s.writer.holding ++ [.event c.lane { code := .brownout, sample := sample }]) ∧
          (∀ k : LaneId, k ≠ c.lane → t.lane k = s.lane k) ∧ t.ctl = s.ctl ∧ t.slots = s.slots)) ∧
    exec (.conversionEnd mv) { s with supply := idle } = .next { s with supply := idle }) ∧
  (∀ (s : State) (i : LaneId) (mv : Int) (n : SlotId) (j : Job) (p : AttachParams),
    s.supply.converter = some { lane := i, cls := .check, void := false } → (s.lane i).state = .powering →
    (s.lane i).queue = [n] → s.slot n = some j → j.spec.params = .attach p → (s.lane i).step = .attachPhase →
    j.results[i.val] = none →
    let sample := (max 0 (min 6000 mv)).toNat
    let l := s.lane i
    let inside := l.vmin ≤ sample ∧ sample ≤ l.vmax
    let counted : Lane := { l with lastSample := sample, checkCount := l.checkCount + 1 }
    let after : Lane → Result := fun x => .next { s with
      supply := { s.supply with converter := none }, lanes := s.lanes.set i.val x }
    (inside → s.ctl.device ≠ .fault → exec (.conversionEnd mv) s = after { counted with
      state := .resetting, modePin := true, resetPin := true, resetPulse := some p.resetPulse, checkWait := none
      outputs := l.outputsAfter (some true) (some true) none }) ∧
    (inside → s.ctl.device = .fault → exec (.conversionEnd mv) s = after counted) ∧
    (¬ inside → l.checkCount < 2 → exec (.conversionEnd mv) s = after { counted with checkWait := some 1 }) ∧
    (¬ inside → l.checkCount = 2 → ∃ t : State, exec (.conversionEnd mv) s = .next t ∧
      (t.lane i).state = .faulted ∧ (t.lane i).faultCode = some .supplyRange ∧ (t.lane i).power = false ∧
      (t.lane i).resetPin = true ∧ (t.lane i).outputs = l.outputsAfter none (some true) (some false) ∧
      (t.lane i).queue = [] ∧ t.outcomeOf n i = some (.faulted .supplyRange) ∧
      t.ctl = s.ctl ∧ ∀ k : LaneId, k ≠ i → t.lane k = s.lane k))

/-- OVERCURRENT_TRIP. With the switch off nothing trips. On a FAULTED lane the switch goes off and the first code is
kept. Else the lane is FAULTED with OVERCURRENT, RESET asserted and then its power off: its only job gets the code, or
with no job a lane event with the last sample is offered; the lane's requests are dropped and a conversion for it is
void. A readback write in flight runs on. The model's choices in it: log 2, log 40. -/
def Obligations.TripOpensTheSwitch : Prop :=
  ∀ (s : State) (i : LaneId),
    ((s.lane i).power = false → exec (.overcurrentTrip i) s = .next s) ∧
    ((s.lane i).power = true →
      ∃ t : State, exec (.overcurrentTrip i) s = .next t ∧ t.ctl = s.ctl ∧
        (∀ k : LaneId, k ≠ i → t.lane k = s.lane k) ∧
        ((s.lane i).state = .faulted →
          t.lane i = { s.lane i with
            power := false, checkPending := false, supervisePending := false, checkWait := none
            outputs := (s.lane i).outputsAfter none none (some false) } ∧
          t.slots = s.slots ∧ t.writer = s.writer) ∧
        ((s.lane i).state ≠ .faulted → (s.lane i).queue.length ≤ 1 →
          (∀ n ∈ (s.lane i).queue, ∃ j : Job, s.slot n = some j ∧ j.results[i.val] = none) →
          (t.lane i).state = .faulted ∧ (t.lane i).faultCode = some .overcurrent ∧ (t.lane i).power = false ∧
          (t.lane i).resetPin = true ∧ (t.lane i).modePin = (s.lane i).modePin ∧
          (t.lane i).outputs = (s.lane i).outputsAfter none (some true) (some false) ∧ (t.lane i).identity = none ∧
          (t.lane i).unlocked = false ∧ (t.lane i).outstanding = none ∧ (t.lane i).pinned = none ∧
          (t.lane i).checkPending = false ∧ (t.lane i).supervisePending = false ∧
          (t.lane i).lastSample = (s.lane i).lastSample ∧ (t.lane i).queue = [] ∧
          (t.lane i).readback = (s.lane i).readback ∧
          (∀ c : Conversion, s.supply.converter = some c → c.lane = i →
            t.supply.converter = some { c with void := true }) ∧
          (∀ n ∈ (s.lane i).queue, t.outcomeOf n i = some (.faulted .overcurrent)) ∧
          ((s.lane i).queue = [] → s.holdingOpen → t.writer.holding = s.writer.holding ++
            [.event i { code := .overcurrent, sample := (s.lane i).lastSample }] ∧ (t.lane i).pendingEvent = none) ∧
          ((s.lane i).queue = [] → ¬ s.holdingOpen → (t.lane i).pendingEvent =
            some { code := .overcurrent, sample := (s.lane i).lastSample } ∧ .laneEvent i ∈ t.writer.waitList)))

/-! ### The phases of ATTACH (R4, R5, R33, R35, R36, R39) -/

/-- POWER_SETTLE_EXPIRY and CHECK_WAIT_EXPIRY place a CHECK request, but none for a lane whose switch is off; a timer
that does not run does not expire. In RESETTING for an ATTACH: the end of the reset pulse releases RESET and starts the
boot settle timer in every device state; the end of the boot settle begins a training attempt at the start rate, with
three characters 0x55 on TXD, but in FAULT leaves the lane where it is. RATE_GAP_EXPIRY: the rate code of the SET_RATE
takes effect; in the ATTACH whose gap it is, IDENTIFY goes out at once with the session's next seq, but none in FAULT or
beside a readback write in flight; for a lane whose ATTACH has ended only the rate changes. The model's choices in it:
log 2, log 12, log 39, log 40. -/
def Obligations.PhaseTimersMoveTheLane : Prop :=
  ((∀ (s : State) (i : LaneId),
    ((s.lane i).powerSettle.isSome = true → exec (.powerSettleExpiry i) s = .next (s.setLane i { s.lane i with
      powerSettle := none, checkPending := (s.lane i).power || (s.lane i).checkPending })) ∧
    ((s.lane i).powerSettle = none → exec (.powerSettleExpiry i) s = .next s) ∧
    ((s.lane i).checkWait.isSome = true → exec (.checkWaitExpiry i) s = .next (s.setLane i { s.lane i with
      checkWait := none, checkPending := (s.lane i).power || (s.lane i).checkPending })) ∧
    ((s.lane i).checkWait = none → exec (.checkWaitExpiry i) s = .next s)) ∧
  (∀ (s : State) (i : LaneId) (n : SlotId) (rest : List SlotId) (j : Job) (p : AttachParams),
    (s.lane i).state = .resetting → (s.lane i).queue = n :: rest → s.slot n = some j → j.spec.params = .attach p →
    (s.lane i).step ≠ .none →
    ((s.lane i).resetPulse.isSome = true → exec (.resetPulseExpiry i) s = .next (s.setLane i { s.lane i with
      resetPulse := none, resetPin := false, bootSettle := some p.bootSettle
      outputs := (s.lane i).outputsAfter none (some false) none })) ∧
    ((s.lane i).resetPulse = none → exec (.resetPulseExpiry i) s = .next s) ∧
    ((s.lane i).bootSettle.isSome = true → s.ctl.device ≠ .fault → (s.lane i).tx = .idle →
      exec (.bootSettleExpiry i) s = .next (s.setLane i { s.lane i with
        bootSettle := none, state := .training, rate := p.startRate, attempts := (s.lane i).attempts + 1
        tx := .pattern [0x55, 0x55, 0x55], resetPin := false
        outputs := (s.lane i).outputsAfter none (some false) none })) ∧
    ((s.lane i).bootSettle.isSome = true → s.ctl.device = .fault →
      exec (.bootSettleExpiry i) s = .next (s.setLane i { s.lane i with bootSettle := none })) ∧
    ((s.lane i).bootSettle = none → exec (.bootSettleExpiry i) s = .next s))) ∧
  (∀ (s : State) (i : LaneId) (r : RateCode),
    ((s.lane i).rateGap = none → exec (.rateGapExpiry i) s = .next s) ∧
    ((s.lane i).rateGap = some r → (s.lane i).step ≠ .attachRateGap →
      exec (.rateGapExpiry i) s = .next (s.setLane i { s.lane i with rateGap := none, rate := r })) ∧
    (∀ (n : SlotId) (rest : List SlotId) (j : Job), (s.lane i).rateGap = some r → (s.lane i).step = .attachRateGap →
      (s.lane i).queue = n :: rest → s.slot n = some j →
      (s.mayRequest i → exec (.rateGapExpiry i) s = .next (s.setLane i
        (Lane.withRequest { s.lane i with rateGap := none, rate := r, step := .attachIdentifyAgain } .identify []))) ∧
      (s.ctl.device = .fault ∨ (s.lane i).readback ≠ none → exec (.rateGapExpiry i) s = .next (s.setLane i
        { s.lane i with rateGap := none, rate := r, step := .attachIdentifyAgain }))))

/-- Training: the end of the pattern starts the 50 ms timer; a 0xB3 not in error while it runs opens the session, with
IDENTIFY as seq 1, which waits while a readback write of an ended job is in flight, or in FAULT only stops the timer;
every other character, and one before the pattern is out, is discarded. A failed training attempt: with fewer than 4
begun a fresh reset pulse, MODE asserted before RESET, in FAULT none; after the fourth the lane is FAULTED with
NO_TARGET, its power kept, and its only job gets the code, with no identity in the result. The model's choices in it:
log 2, log 39, log 40. -/
def Obligations.TrainingSucceedsOrRetries : Prop :=
  (∀ (s : State) (i : LaneId) (n : SlotId) (rest : List SlotId) (j : Job),
    (s.lane i).state = .training → (s.lane i).queue = n :: rest → s.slot n = some j →
    (∀ chars : List Byte, (s.lane i).tx = .pattern chars → exec (.trainingPatternSent i) s = .next (s.setLane i { s.lane i with
      tx := .idle, training := some 50 })) ∧
    ((∀ chars : List Byte, (s.lane i).tx ≠ .pattern chars) → exec (.trainingPatternSent i) s = .next s) ∧
    (∀ ch : RxChar, (s.lane i).training = none ∨ ch.inError = true ∨ ch.data ≠ 0xB3 →
      exec (.trainingCharacterReceived i ch) s = .next s) ∧
    (∀ ch : RxChar, (s.lane i).training.isSome = true → ch.inError = false → ch.data = 0xB3 →
      (s.ctl.device = .fault → exec (.trainingCharacterReceived i ch) s = .next (s.setLane i { s.lane i with
        training := none })) ∧
      (s.ctl.device ≠ .fault → (s.lane i).tx = .idle → (s.lane i).outstanding = none → (s.lane i).readback = none →
        exec (.trainingCharacterReceived i ch) s = .next (s.setLane i
          (Lane.withRequest { s.lane i with training := none, nextSeq := 1, rx := none, step := .attachIdentify }
            .identify []))) ∧
      (s.ctl.device ≠ .fault → (s.lane i).readback ≠ none → exec (.trainingCharacterReceived i ch) s = .next (s.setLane i
        { s.lane i with training := none, nextSeq := 1, rx := none, step := .attachIdentify })))) ∧
  (∀ (s : State) (i : LaneId) (n : SlotId) (j : Job) (p : AttachParams),
    (s.lane i).state = .training → (s.lane i).training.isSome = true → (s.lane i).queue = [n] → s.slot n = some j →
    j.spec.params = .attach p → (s.lane i).step = .attachPhase → (s.lane i).outstanding = none →
    (s.lane i).identity = none → (s.lane i).unlocked = false → j.results[i.val] = none →
    ((s.lane i).attempts < 4 → s.ctl.device ≠ .fault →
      exec (.trainingTimeout i) s = .next (s.setLane i { s.lane i with
        training := none, state := .resetting, modePin := true, resetPin := true, resetPulse := some p.resetPulse
        checkWait := none, outputs := (s.lane i).outputsAfter (some true) (some true) none })) ∧
    ((s.lane i).attempts < 4 → s.ctl.device = .fault →
      exec (.trainingTimeout i) s = .next (s.setLane i { s.lane i with training := none })) ∧
    (4 ≤ (s.lane i).attempts → ∃ t : State, exec (.trainingTimeout i) s = .next t ∧
      (t.lane i).state = .faulted ∧ (t.lane i).faultCode = some .noTarget ∧
      (t.lane i).power = (s.lane i).power ∧ (t.lane i).resetPin = true ∧ (t.lane i).modePin = (s.lane i).modePin ∧
      (t.lane i).outputs = (s.lane i).outputsAfter none (some true) none ∧
      (t.lane i).queue = [] ∧
      t.resultOf n i = some { outcome := .faulted .noTarget, nak := none, kind := none, addr := none
                              sample := (s.lane i).lastSample, body := .attach none false } ∧
      t.ctl = s.ctl ∧ ∀ k : LaneId, k ≠ i → t.lane k = s.lane k))

/-! ### The Loader Link (R6 to R12, R21 to R25) -/

/-- A frame is read back as it was built: after all its characters the receiver has a good frame with its seq, kind and
payload, and after each proper, non-empty part of it from the start it is inside the frame. A frame whose two CRC bytes
differ from the check over its length, seq, kind and payload is spoiled, and a length byte above 132 spoils the frame at
once. -/
def Obligations.FramesAreReadBackOrSpoiled : Prop :=
  (∀ (seq kind : Byte) (payload : List Byte), payload.length ≤ 132 →
    (buildFrame seq kind payload).length = 6 + payload.length ∧
      rxStatus (buildFrame seq kind payload) = .good seq kind payload ∧
      ∀ k : Nat, 0 < k → k < 6 + payload.length → rxStatus ((buildFrame seq kind payload).take k) = .inside) ∧
  ((∀ (seq kind hi lo : Byte) (payload : List Byte), payload.length ≤ 132 →
    (hi ++ lo : BitVec 16) ≠ crc16 (BitVec.ofNat 8 payload.length :: seq :: kind :: payload) →
    rxStatus (0xC5 :: BitVec.ofNat 8 payload.length :: seq :: kind :: (payload ++ [hi, lo])) = .badCrc) ∧
      ∀ len : Byte, 132 < len.toNat → rxStatus [0xC5, len] = .tooLong)

/-- FRAME_SENT for a transmission of the outstanding request starts its timer at the response timeout in force; for a
frame whose request has ended it starts none, and a training pattern that waited for TXD then goes out; with no frame on
TXD nothing happens. RESPONSE_TIMEOUT below the job's retry limit sends the same frame again with a retry used and
counted; at the limit the lane is FAULTED with NO_RESPONSE, or RATE_SWITCH for the IDENTIFY after a rate change, and its
only job gets the code, with the request's kind where a rule gives one: not for START, nor for IDENTIFY and SET_RATE
without an abort pending. With no timer running nothing happens. The model's choices in it: log 2, log 10, log 38, log
40. -/
def Obligations.ResponseTimerStartsAndRunsOut : Prop :=
  (∀ (s : State) (i : LaneId) (bytes : List Byte),
    (∀ (q : Request) (c : Settings), (s.lane i).tx = .frame bytes true → (s.lane i).outstanding = some q →
      s.ctl.inForce = some c →
      exec (.frameSent i) s = .next (s.setLane i { s.lane i with
        tx := .idle, outstanding := some { q with timer := some c.responseTimeout } })) ∧
    ((s.lane i).tx = .frame bytes false → (s.lane i).state = .training →
      exec (.frameSent i) s = .next (s.setLane i { s.lane i with tx := .pattern [0x55, 0x55, 0x55] })) ∧
    ((s.lane i).tx = .frame bytes false → (s.lane i).state ≠ .training →
      (s.lane i).state ≠ .ready ∨ (s.lane i).step = .none →
      exec (.frameSent i) s = .next (s.setLane i { s.lane i with tx := .idle })) ∧
    ((s.lane i).tx = .idle ∨ (∃ chars : List Byte, (s.lane i).tx = .pattern chars) → exec (.frameSent i) s = .next s)) ∧
  (∀ (s : State) (i : LaneId) (n : SlotId) (j : Job) (q : Request),
    (s.lane i).outstanding = some q → (s.lane i).queue = [n] → s.slot n = some j → j.results[i.val] = none →
    (q.timer = none → exec (.responseTimeout i) s = .next s) ∧
    (q.timer.isSome = true → q.retries < j.spec.retryLimit →
      exec (.responseTimeout i) s = .next (s.setLane i ((s.lane i).withRetry q))) ∧
    (q.timer.isSome = true → j.spec.retryLimit ≤ q.retries → (s.lane i).state ≠ .faulted →
      let unnamed : Bool := q.kind == .start || ((q.kind == .identify || q.kind == .setRate) && !j.abortMark)
      let code : FaultCode := if (s.lane i).step = .attachIdentifyAgain then .rateSwitch else .noResponse
      ∃ (t : State) (x : LaneResult), exec (.responseTimeout i) s = .next t ∧
        (t.lane i).state = .faulted ∧ (t.lane i).faultCode = some code ∧ (t.lane i).outstanding = none ∧
        (t.lane i).identity = none ∧ (t.lane i).pinned = none ∧ (t.lane i).resetPin = true ∧
        (t.lane i).power = (s.lane i).power ∧ (t.lane i).modePin = (s.lane i).modePin ∧
        (t.lane i).outputs = (s.lane i).outputsAfter none (some true) none ∧ (t.lane i).queue = [] ∧
        t.resultOf n i = some x ∧ x.outcome = .faulted code ∧ x.kind = (if unnamed then none else some q.kind) ∧
        x.addr = requestAddr q.kind q.payload ∧ x.sample = (s.lane i).lastSample ∧ t.ctl = s.ctl ∧
        ∀ k : LaneId, k ≠ i → t.lane k = s.lane k))

/-- With the receiver off every character, frame and gap is discarded, and with no frame being received neither a gap
nor a character in error does anything. A spoiled frame, by a character in error, a long length, a CRC that does not
match or a gap of more than 5 ms, is discarded and counted as a link error; while the response timer runs and retries
are left the request is sent again at once, and else it goes on as it was. A character taken outside a frame begins one
when it is 0xC5 and not in error, and is else discarded; inside a frame one that does not end it is its next field. A
good frame with no request outstanding, or with another seq than the outstanding request's, is discarded and counted
nowhere. The model's choices in it: log 2, log 21, log 44. -/
def Obligations.CharactersAndSpoiledFrames : Prop :=
  ((∀ (s : State) (i : LaneId),
    ((s.lane i).receiving = false ∨ (s.lane i).rx = none → exec (.frameGapTimeout i) s = .next s) ∧
    (∀ (chars : List Byte) (bad : Option RxChar), (s.lane i).receiving = false →
      exec (.frameSpoiled i chars bad) s = .next s ∧ exec (.frameReceived i chars) s = .next s) ∧
    (∀ c : RxChar, (s.lane i).rx = none → exec (.frameSpoiled i [] (some c)) s = .next s)) ∧
  ∀ (s : State) (i : LaneId) (c : Instr), (s.lane i).receiving = true →
    ((c = .frameGapTimeout i ∧ (s.lane i).rx.isSome = true) ∨
      (∃ (chars : List Byte) (bad : RxChar), c = .frameSpoiled i chars (some bad) ∧ bad.inError = true ∧
        rxStatus ((s.lane i).received chars) = .inside) ∨
      ∃ chars : List Byte, c = .frameSpoiled i chars none ∧ chars ≠ [] ∧
        (rxStatus ((s.lane i).received chars) = .tooLong ∨ rxStatus ((s.lane i).received chars) = .badCrc)) →
    let counted : Lane := { s.lane i with rx := none, linkErrors := (s.lane i).linkErrors + 1 }
    (∀ (q : Request) (n : SlotId) (rest : List SlotId) (j : Job), (s.lane i).outstanding = some q →
      (s.lane i).queue = n :: rest → s.slot n = some j →
      (q.timer.isSome = true → q.retries < j.spec.retryLimit →
        exec c s = .next (s.setLane i (counted.withRetry q))) ∧
      (q.timer = none ∨ j.spec.retryLimit ≤ q.retries → exec c s = .next (s.setLane i counted))) ∧
    ((s.lane i).outstanding = none → exec c s = .next (s.setLane i counted))) ∧
  ((∀ (s : State) (i : LaneId) (ch : RxChar),
    ((s.lane i).receiving = false → exec (.frameCharacterReceived i ch) s = .next s) ∧
    ((s.lane i).receiving = true → (s.lane i).rx = none → ch.inError = true ∨ ch.data ≠ 0xC5 →
      exec (.frameCharacterReceived i ch) s = .next s) ∧
    ((s.lane i).receiving = true → (s.lane i).rx = none → ch.inError = false → ch.data = 0xC5 →
      exec (.frameCharacterReceived i ch) s = .next (s.setLane i { s.lane i with rx := some [0xC5] })) ∧
    (∀ part : List Byte, (s.lane i).receiving = true → (s.lane i).rx = some part → ch.inError = false →
      rxStatus (part ++ [ch.data]) = .inside →
      exec (.frameCharacterReceived i ch) s = .next (s.setLane i { s.lane i with rx := some (part ++ [ch.data]) }))) ∧
  (∀ (s : State) (i : LaneId) (chars : List Byte) (seq kind : Byte) (payload : List Byte),
    (s.lane i).receiving = true → s.completes i chars seq kind payload →
    ((s.lane i).outstanding = none ∨ ∃ q : Request, (s.lane i).outstanding = some q ∧ q.seq ≠ seq) →
    exec (.frameReceived i chars) s = .next (s.setLane i { s.lane i with rx := none })))

/-- A matching WAIT is counted, and restarts a running response timer at the smaller of its estimate plus the response
timeout and the wait cap; the 256th faults the lane with TARGET_STALLED. A WAIT that comes while the frame is still
being sent is counted alone, and a retransmission keeps the count. All this holds for a job with an abort pending and
for an image-failed one as well. -/
def Obligations.WaitRestartsTheTimer : Prop :=
  ∀ (s : State) (i : LaneId) (n : SlotId) (j : Job) (q : Request) (c : Settings) (chars payload : List Byte),
    s.engaged i n j q → s.completes i chars q.seq 0x84 payload → payload.length = 2 → beNat payload ≠ 0 →
    s.ctl.inForce = some c →
    (q.waits < 255 → exec (.frameReceived i chars) s = .next (s.setLane i { s.lane i with
      rx := none
      outstanding := some { q with
        waits := q.waits + 1
        timer := q.timer.map (fun _ => min (beNat payload + c.responseTimeout) c.waitCap) } })) ∧
    (q.waits = 255 → ∃ t : State, exec (.frameReceived i chars) s = .next t ∧
      (t.lane i).state = .faulted ∧ (t.lane i).faultCode = some .targetStalled ∧ (t.lane i).outstanding = none ∧
      (t.lane i).power = (s.lane i).power ∧ (t.lane i).queue = [] ∧
      t.outcomeOf n i = some (.faulted .targetStalled) ∧ t.ctl = s.ctl ∧ ∀ k : LaneId, k ≠ i → t.lane k = s.lane k) ∧
    ∀ (k : Instr) (u : State) (r : Request),
      (k = .responseTimeout i ∨ k = .frameGapTimeout i ∨ (∃ (cs : List Byte) (b : Option RxChar), k = .frameSpoiled i cs b) ∨
        ∃ cs : List Byte, k = .frameReceived i cs ∧ s.completes i cs q.seq 0x85 [1]) →
      exec k s = .next u → (u.lane i).outstanding = some r → r.waits = q.waits

/-- The form that the good answer to each kind of request has, with the values of R13 that a HELLO's identity record may
hold, 1 to 16 MiB of flash among them. A matching frame of a kind that the request does not allow, or whose payload has
not the form of its kind, a NAK other than FRAME to IDENTIFY, and a HELLO after a rate change with another device class,
fault the lane with PROTOCOL; the result names the failing request's kind, but not for START, nor with no abort pending
for SET_RATE and an IDENTIFY that no NAK has answered. It is so for a job with an abort pending and for an image-failed
one as well. The model's choices in it: log 38, log 40, log 45. -/
def Obligations.BreachFaultsProtocol : Prop :=
  (∀ (q : Request) (rate : RateCode) (payload : List Byte),
    let field := fun off len : Nat => beField payload off len
    q.kind.goodCode = (match q.kind with
      | .identify => 0x83 | .read => 0x82 | .unlock => 0x81 | .erase => 0x81 | .write => 0x81 | .sum => 0x81
      | .protect => 0x81 | .setRate => 0x81 | .start => 0x81) ∧
    (goodForm q rate payload = true ↔
      match q.kind with
      | .identify => payload.length = 24 ∧ field 4 4 + field 8 4 ≤ 2 ^ 32 ∧ 1048576 ≤ field 8 4 ∧
          field 8 4 ≤ 16777216 ∧ field 8 4 % field 12 4 = 0 ∧
          (∃ k : Nat, 8 ≤ k ∧ k ≤ 16 ∧ field 12 4 = 2 ^ k) ∧ (∃ k : Nat, k ≤ 4 ∧ field 16 1 = 2 ^ k) ∧
          16 ≤ field 17 1 ∧ field 17 1 ≤ 128 ∧ field 17 1 % field 16 1 = 0 ∧ field 3 1 ≤ 2 ∧ field 19 1 ≤ 15 ∧
          (payload.getD 20 0).getLsbD rate.val = true
      | .erase => payload.length = 1 ∧ (payload.getD 0 0).toNat ≤ 2
      | .sum => payload.length = 4
      | .read => payload.length = beField q.payload 4 2
      | .unlock => payload = [] | .write => payload = [] | .protect => payload = [] | .setRate => payload = []
      | .start => payload = [])) ∧
  ∀ (s : State) (i : LaneId) (n : SlotId) (j : Job) (q : Request) (chars payload : List Byte) (kind : Byte),
    s.engaged i n j q → s.completes i chars q.seq kind payload →
    ((kind ≠ 0x84 ∧ kind ≠ 0x85 ∧ kind ≠ q.kind.goodCode) ∨
      (kind = 0x84 ∧ ¬ (payload.length = 2 ∧ beNat payload ≠ 0)) ∨
      (kind = 0x85 ∧ ¬ ∃ b : Byte, payload = [b] ∧ 1 ≤ b.toNat ∧ b.toNat ≤ 10) ∨
      (kind = 0x85 ∧ q.kind = .identify ∧ payload ≠ [1]) ∨
      (kind = q.kind.goodCode ∧ goodForm q (s.lane i).rate payload = false) ∨
      (kind = 0x83 ∧ q.kind = .identify ∧ (s.lane i).step = .attachIdentifyAgain ∧
        ∃ d : Identity, (s.lane i).identity = some d ∧ d.deviceClass.toNat ≠ beField payload 0 2)) →
    let refused : Bool := kind == 0x85 && (match payload with
      | [b] => decide (2 ≤ b.toNat ∧ b.toNat ≤ 10)
      | _ => false)
    let unnamed : Bool :=
      q.kind == .start || ((q.kind == .setRate || (q.kind == .identify && !refused)) && !j.abortMark)
    ∃ (t : State) (x : LaneResult), exec (.frameReceived i chars) s = .next t ∧
      (t.lane i).state = .faulted ∧ (t.lane i).faultCode = some .protocol ∧ (t.lane i).outstanding = none ∧
      (t.lane i).identity = none ∧ (t.lane i).power = (s.lane i).power ∧ (t.lane i).queue = [] ∧
      (t.lane i).outputs = (s.lane i).outputsAfter none (some true) none ∧
      t.resultOf n i = some x ∧ x.outcome = .faulted .protocol ∧ x.nak = none ∧
      x.kind = (if unnamed then none else some q.kind) ∧ x.addr = requestAddr q.kind q.payload ∧ t.ctl = s.ctl ∧ ∀ k : LaneId, k ≠ i → t.lane k = s.lane k

/-- A matching NAK. FRAME: the request is sent again at once while its timer runs and retries are left, and else goes
on, with an abort pending and on an image-failed job as well. Any other reason, to a request other than IDENTIFY of a
job that is neither, ends it as refused: the lane is READY and keeps the refusal and its only job ends with
TARGET_REFUSED, or AUTH_REJECTED for AUTH to UNLOCK, which lowers the attempts remaining. -/
def Obligations.NakRetransmitsOrRefuses : Prop :=
  ∀ (s : State) (i : LaneId) (n : SlotId) (j : Job) (q : Request) (chars : List Byte) (code : Byte) (r : NakReason),
    s.engaged i n j q → s.completes i chars q.seq 0x85 [code] → NakReason.ofCode code = some r →
    (r = .frame → q.timer.isSome = true → q.retries < j.spec.retryLimit →
      exec (.frameReceived i chars) s = .next (s.setLane i (Lane.withRetry { s.lane i with rx := none } q))) ∧
    (r = .frame → q.timer = none ∨ j.spec.retryLimit ≤ q.retries →
      exec (.frameReceived i chars) s = .next (s.setLane i { s.lane i with rx := none })) ∧
    (r ≠ .frame → q.kind ≠ .identify → s.working i n j q → ∃ (t : State) (x : LaneResult), exec (.frameReceived i chars) s = .next t ∧
      (t.lane i).state = .ready ∧ (t.lane i).outstanding = none ∧ (t.lane i).pinned = none ∧
      (t.lane i).lastRefusal = some { reason := r, kind := q.kind, addr := requestAddr q.kind q.payload } ∧
      (t.lane i).queue = [] ∧ (t.lane i).unlocked = (s.lane i).unlocked ∧ (t.lane i).power = (s.lane i).power ∧
      t.resultOf n i = some x ∧ x.nak = some r ∧ x.kind = some q.kind ∧ x.addr = requestAddr q.kind q.payload ∧
      (q.kind = .unlock ∧ r = .auth → x.outcome = .authRejected ∧ (t.lane i).identity =
        (s.lane i).identity.map (fun d => { d with attempts := d.attempts - 1 })) ∧
      (¬ (q.kind = .unlock ∧ r = .auth) → x.outcome = .targetRefused ∧ (t.lane i).identity = (s.lane i).identity) ∧
      t.ctl = s.ctl ∧ ∀ k : LaneId, k ≠ i → t.lane k = s.lane k)

/-- A good answer that ends a one-request job: the ACK to PROTECT sets the record's level to the job's, the ACK to an
ERASE of the whole flash sets it to the level reported, the ACK to START leaves the lane RELEASED with MODE deasserted,
and the ACK to UNLOCK sets the unlocked flag and releases the pin; the outcome is OK. The model's choices in it: log 40.
-/
def Obligations.AcksThatFinishAJob : Prop :=
  ∀ (s : State) (i : LaneId) (n : SlotId) (j : Job) (q : Request) (chars payload : List Byte),
    s.working i n j q → s.completes i chars q.seq 0x81 payload →
    goodForm q (s.lane i).rate payload = true → q.kind.goodCode = 0x81 →
    ((q.kind = .protect ∧ (s.lane i).step = .protect ∧ ∃ level : Byte, j.spec.params = .protect level) ∨
      (q.kind = .erase ∧ (s.lane i).step = .eraseAll) ∨ (q.kind = .start ∧ (s.lane i).step = .detachStart) ∨
      (q.kind = .unlock ∧ (s.lane i).step = .attachCredential)) →
    ∃ t : State, exec (.frameReceived i chars) s = .next t ∧ t.outcomeOf n i = some .ok ∧
      (t.lane i).outstanding = none ∧ (t.lane i).pinned = none ∧ (t.lane i).queue = [] ∧
      (t.lane i).power = (s.lane i).power ∧ (t.lane i).resetPin = (s.lane i).resetPin ∧
      (∀ level : Byte, j.spec.params = .protect level → q.kind = .protect →
        (t.lane i).state = .ready ∧
          (t.lane i).identity = (s.lane i).identity.map (fun d => { d with level := level })) ∧
      (q.kind = .erase → (t.lane i).state = .ready ∧
        (t.lane i).identity = (s.lane i).identity.map (fun d => { d with level := payload.getD 0 0 })) ∧
      (q.kind = .start → (t.lane i).state = .released ∧ (t.lane i).modePin = false ∧ (t.lane i).identity = none ∧
        (t.lane i).unlocked = false ∧ (t.lane i).outputs = (s.lane i).outputsAfter (some false) none none) ∧
      (q.kind = .unlock → (t.lane i).state = .ready ∧ (t.lane i).identity = (s.lane i).identity ∧
        (t.lane i).unlocked = (s.lane i).identity.isSome ∧
        ∀ c : CredId, (s.lane i).pinned = some c → (t.cred c).pins = (s.cred c).pins - 1) ∧
      t.ctl = s.ctl ∧ ∀ k : LaneId, k ≠ i → t.lane k = s.lane k

/-- A request that ends for a job with its abort mark set or image-failed. A good answer has its usual effect on the
lane: the level of an ERASE or PROTECT, the bytes and the CRC of a WRITE, the bytes of a READ with no host write, the
record of the HELLO after a rate change, the rate gap of a SET_RATE, the unlocked flag of an UNLOCK. A NAK other than
FRAME is kept as the last refusal, and AUTH lowers the attempts remaining. Either way the lane is READY, no further
request goes out, no window is filled, and the outcome is ABORTED, or with no abort HOST_READ at the failed block's
first byte, with no reason and no kind. But a START with an abort pending ends as DETACH does: the ACK leaves the lane
RELEASED with OK, and a NAK gives TARGET_REFUSED. The model's choices in it: log 14, log 24. -/
def Obligations.MarkedJobsEndWithTheirRequest : Prop :=
  ∀ (s : State) (i : LaneId) (n : SlotId) (j : Job) (q : Request) (chars : List Byte),
    s.engaged i n j q → j.abortMark = true ∨ j.imageFailed ≠ none → (s.lane i).step.request = some q.kind →
    (s.lane i).step ≠ .attachIdentify →
    let marked := fun t : State => ∃ x : LaneResult, t.resultOf n i = some x ∧ x.nak = none ∧ x.kind = none ∧
      (j.abortMark = true → x.outcome = .aborted ∧ x.addr = none) ∧
      (j.abortMark = false → x.outcome = .hostRead ∧ ∀ (g b : Nat) (e : Segment), j.imageFailed = some (g, b) →
        j.list[g]? = some e → x.addr = some (e.target + BitVec.ofNat 32 (128 * b)))
    let settled := fun t : State => (t.lane i).outstanding = none ∧ (t.lane i).queue = [] ∧ (t.lane i).pinned = none ∧
      (t.lane i).readback = (s.lane i).readback ∧ (t.lane i).sent = (s.lane i).sent ∧ (t.lane i).tx = (s.lane i).tx.orphaned ∧
      (t.lane i).power = (s.lane i).power ∧ (∀ b : BlockId, (t.pool.block b).isSome = true → (s.pool.block b).isSome = true) ∧
      t.ctl = s.ctl ∧ ∀ k : LaneId, k ≠ i → t.lane k = s.lane k
    (∀ payload : List Byte, s.completes i chars q.seq q.kind.goodCode payload →
      goodForm q (s.lane i).rate payload = true → q.kind ≠ .start →
      (q.kind = .identify → (s.lane i).identity.map Identity.deviceClass = some (parseIdentity payload).deviceClass) →
      ∃ t : State, exec (.frameReceived i chars) s = .next t ∧ marked t ∧ settled t ∧ (t.lane i).state = .ready ∧
        (q.kind = .erase → (t.lane i).identity = (s.lane i).identity.map (fun d => { d with level := payload.getD 0 0 })) ∧
        (∀ level : BitVec 8, q.kind = .protect → j.spec.params = .protect level →
          (t.lane i).identity = (s.lane i).identity.map (fun d => { d with level := level })) ∧
        (∀ (k : Nat) (g : Segment), (s.lane i).step = .programWrite k → j.list[k]? = some g →
          (t.lane i).crc = crc32Feed (s.lane i).crc (q.payload.drop 4) ∧
          (t.lane i).bytes = (s.lane i).bytes + (q.payload.drop 4).length) ∧
        (q.kind = .read → (t.lane i).bytes = (s.lane i).bytes + payload.length) ∧
        (q.kind = .identify → (t.lane i).identity = some (parseIdentity payload) ∧
          (t.lane i).unlocked = !(parseIdentity payload).credentialRequired) ∧
        (∀ p : AttachParams, q.kind = .setRate → j.spec.params = .attach p → (t.lane i).rateGap = some p.targetRate) ∧
        (q.kind = .unlock → (t.lane i).unlocked = (s.lane i).identity.isSome)) ∧
    (∀ (code : Byte) (r : NakReason), s.completes i chars q.seq 0x85 [code] → NakReason.ofCode code = some r →
      r ≠ .frame → q.kind ≠ .identify → (q.kind = .start → j.abortMark = false) →
      ∃ t : State, exec (.frameReceived i chars) s = .next t ∧ marked t ∧ settled t ∧ (t.lane i).state = .ready ∧
        (t.lane i).lastRefusal = some { reason := r, kind := q.kind, addr := requestAddr q.kind q.payload } ∧
        (t.lane i).identity = (s.lane i).identity.map (fun d =>
          if q.kind = .unlock ∧ r = .auth then { d with attempts := d.attempts - 1 } else d)) ∧
    (q.kind = .start → j.imageFailed = none →
      (s.completes i chars q.seq 0x81 [] → ∃ t : State, exec (.frameReceived i chars) s = .next t ∧ settled t ∧
        t.outcomeOf n i = some .ok ∧ (t.lane i).state = .released ∧ (t.lane i).modePin = false ∧
        (t.lane i).identity = none ∧ (t.lane i).unlocked = false) ∧
      ∀ (code : Byte) (r : NakReason), s.completes i chars q.seq 0x85 [code] → NakReason.ofCode code = some r →
        r ≠ .frame → ∃ (t : State) (x : LaneResult), exec (.frameReceived i chars) s = .next t ∧ settled t ∧
          t.resultOf n i = some x ∧ x.outcome = .targetRefused ∧ x.nak = some r ∧ x.kind = some .start ∧
          (t.lane i).state = .ready)

/-- The HELLO to the first IDENTIFY is stored whole, and the unlocked flag set from it; with a target rate other than
the current one that the record supports, SET_RATE goes out next, and with one that it does not support the outcome is
RATE_UNSUPPORTED and the lane stays READY. The ACK to SET_RATE: the lane is READY with its receiver off, and the 2 ms
gap holds the new rate code. Where the target rate is the current one, and after the second HELLO, the unlock decision
follows (UnlockDecisionAndCredentialStep). The model's choices in it: log 10. -/
def Obligations.HelloAndTheRateChange : Prop :=
  (∀ (s : State) (i : LaneId) (n : SlotId) (j : Job) (q : Request) (p : AttachParams) (chars payload : List Byte),
    s.working i n j q → s.completes i chars q.seq 0x83 payload → q.kind = .identify →
    (s.lane i).step = .attachIdentify → j.spec.params = .attach p →
    goodForm q (s.lane i).rate payload = true → p.targetRate ≠ (s.lane i).rate → (s.lane i).pinned = none →
    let d := parseIdentity payload
    let stored : Lane := { s.lane i with
      rx := none, outstanding := none, state := .ready, tx := (s.lane i).tx.orphaned
      identity := some d, unlocked := !d.credentialRequired }
    (d.rates.getLsbD p.targetRate.val = true → (s.lane i).tx = .idle → s.ctl.device ≠ .fault →
      exec (.frameReceived i chars) s = .next (s.setLane i
        (Lane.withRequest { stored with step := .attachSetRate } .setRate [BitVec.ofNat 8 p.targetRate.val]))) ∧
    (d.rates.getLsbD p.targetRate.val = false → ∃ t : State, exec (.frameReceived i chars) s = .next t ∧
      t.lane i = { stored with queue := [], step := .none } ∧
      t.outcomeOf n i = some .rateUnsupported ∧ t.ctl = s.ctl ∧ ∀ k : LaneId, k ≠ i → t.lane k = s.lane k)) ∧
  (∀ (s : State) (i : LaneId) (n : SlotId) (j : Job) (q : Request) (p : AttachParams) (chars : List Byte),
    s.working i n j q → s.completes i chars q.seq 0x81 [] → q.kind = .setRate →
    (s.lane i).step = .attachSetRate → j.spec.params = .attach p → (s.lane i).pinned = none →
    ∃ t : State, exec (.frameReceived i chars) s = .next t ∧
      t = s.setLane i { s.lane i with
        rx := none, outstanding := none, state := .ready, tx := (s.lane i).tx.orphaned
        rateGap := some p.targetRate, step := .attachRateGap } ∧ (t.lane i).receiving = false)

/-- The unlock decision, at the first HELLO when the target rate is the current one, and at the HELLO after a rate
change with the same device class: the record is stored whole and the unlocked flag set from it. With no credential
required, or selector NONE, the outcome is OK; else the credential step is made, but in FAULT not entered. No entry
resolved gives NO_CREDENTIAL, attempts remaining at or below the reserve in force give AUTH_RESERVE, and else, in the
same happening, the entry is pinned and UNLOCK goes out with its bytes. A selector resolves to the entry named, if
valid, or for AUTO to the lowest valid entry whose mask picks the same bits from the device class as from the entry's
class. With TXD still busy with a frame whose request has ended the step waits after its checks, and is made again at
that frame's end, by FRAME_SENT; with a readback write that an ended job has left in flight, at that write's end. The
model's choices in it: log 10, log 33. -/
def Obligations.UnlockDecisionAndCredentialStep : Prop :=
  ∀ (s : State) (i : LaneId) (n : SlotId) (j : Job) (p : AttachParams),
    j.spec.params = .attach p → (s.lane i).pinned = none →
    -- command `c` leaves lane `i` as `l` but for its job, which ends
    let ends := fun (c : Instr) (l : Lane) (o : LaneOutcome) => ∃ t : State, exec c s = .next t ∧
      t.outcomeOf n i = some o ∧ t.lane i = { l with queue := [], step := .none } ∧
      t.creds = s.creds ∧ t.ctl = s.ctl ∧ ∀ k : LaneId, k ≠ i → t.lane k = s.lane k
    let resolves := fun (d : Identity) (e : CredId) => (s.cred e).valid = true ∧
      (p.selector = .entry e ∨
        (p.selector = .auto ∧ (s.cred e).mask &&& d.deviceClass = (s.cred e).mask &&& (s.cred e).cls))
    -- the credential step, made by command `c` on lane `i` standing as `l` with the record `d`
    let credential := fun (c : Instr) (l : Lane) (d : Identity) =>
      (s.ctl.device = .fault → exec c s = .next (s.setLane i { l with step := .attachCredential })) ∧
      ∀ k : Settings, s.ctl.inForce = some k → s.ctl.device ≠ .fault →
        ((∀ e : CredId, ¬ resolves d e) → ends c l .noCredential) ∧
        ∀ e : CredId, resolves d e → (∀ b : CredId, b < e → ¬ resolves d b) →
          (d.attempts.toNat ≤ k.reserve → ends c l .authReserve) ∧
          (k.reserve < d.attempts.toNat → l.tx = .idle → l.readback = none → exec c s = .next { s with
            creds := s.creds.set e.val { s.cred e with pins := (s.cred e).pins + 1 }
            lanes := s.lanes.set i.val (Lane.withRequest { l with step := .attachCredential, pinned := some e } .unlock
              ((s.cred e).bytes.take (s.cred e).length)) }) ∧
          (k.reserve < d.attempts.toNat → l.tx ≠ .idle ∨ l.readback ≠ none →
            exec c s = .next (s.setLane i { l with step := .attachCredential }))
    (∀ (q : Request) (chars payload : List Byte), s.working i n j q → s.completes i chars q.seq 0x83 payload →
      q.kind = .identify → goodForm q (s.lane i).rate payload = true →
      ((s.lane i).step = .attachIdentify ∧ p.targetRate = (s.lane i).rate) ∨
        ((s.lane i).step = .attachIdentifyAgain ∧
          (s.lane i).identity.map Identity.deviceClass = some (parseIdentity payload).deviceClass) →
      let d := parseIdentity payload
      let l : Lane := { (s.lane i).answered with identity := some d, unlocked := !d.credentialRequired }
      (d.credentialRequired = false ∨ p.selector = .none → ends (.frameReceived i chars) l .ok) ∧
      (d.credentialRequired = true → p.selector ≠ .none → credential (.frameReceived i chars) l d)) ∧
    (∀ d : Identity, (s.lane i).state = .ready → (s.lane i).outstanding = none →
      (s.lane i).step = .attachCredential → (s.lane i).queue = [n] → s.slot n = some j → j.results[i.val] = none →
      (s.lane i).identity = some d → p.selector ≠ .none →
      (∀ bytes : List Byte, (s.lane i).tx = .frame bytes false →
        credential (.frameSent i) { s.lane i with tx := .idle } d) ∧
      ∀ w : HostWrite, (s.lane i).readback ≠ none →
        credential (.readbackWriteEnd .abandoned i w) { s.lane i with readback := none } d)

/-- CHUNK_SEND: a lane in its write step with the block at its cursor READY and nothing outstanding sends the chunk at
its cursor: the lesser of the chunk size and the block's bytes beyond the offset, at target + 128 × block + offset. With
the block not READY, a request outstanding or a readback write in flight, or in FAULT, nothing is sent. The model's
choices in it: log 4. -/
def Obligations.ChunkSendWritesTheCursorChunk : Prop :=
  ∀ (s : State) (i : LaneId) (n : SlotId) (rest : List SlotId) (j : Job) (k : Nat) (g : Segment) (b : BlockId)
    (x : Block) (data : List Byte) (d : Identity),
    s.pool.sound → (s.lane i).step = .programWrite k → (s.lane i).queue = n :: rest → s.slot n = some j →
    j.list[k]? = some g → s.pool.block b = some x → x.slot = n → x.segment = (s.lane i).segment →
    x.index = (s.lane i).block → (s.lane i).identity = some d → d.maxWrite.toNat ≤ 128 →
    0 < d.granule.toNat → d.maxWrite.toNat % d.granule.toNat = 0 →
    (x.state = .ready data → s.mayRequest i →
      exec (.chunkSend i) s = .next (s.setLane i ((s.lane i).withRequest .write
        (beBytes 4 (g.target.toNat + 128 * (s.lane i).block + (s.lane i).offset) ++
          (data.drop (s.lane i).offset).take d.maxWrite.toNat)))) ∧
    (x.state = .waiting ∨ x.state = .inFlight ∨ (s.lane i).outstanding.isSome = true ∨ s.ctl.device = .fault ∨
      (s.lane i).readback ≠ none → exec (.chunkSend i) s = .next s)

/-- The ACK to a WRITE within a block: its bytes are fed to the accumulator in address order and counted, the chunk
offset advances by their number, and the cursor stays at the block. The ACK to a VERIFY's SUM: a value that differs from
the segment's CRC ends the job with VERIFY_MISMATCH at the segment's address; one that matches leads to the SUM of the
next segment, or after the last to OK. The DATA to a READ is counted and its payload written at the lane's own place in
host memory. The model's choices in it: log 16, log 34. -/
def Obligations.DataAnswersTakeEffect : Prop :=
  (∀ (s : State) (i : LaneId) (n : SlotId) (j : Job) (q : Request) (k : Nat) (g : Segment) (chars chunk : List Byte),
    s.working i n j q → s.completes i chars q.seq 0x81 [] → q.kind = .write → (s.lane i).step = .programWrite k →
    j.list[k]? = some g → chunk = q.payload.drop 4 →
    (s.lane i).offset + chunk.length < min 128 (g.length - 128 * (s.lane i).block) →
    ∃ t : State, exec (.frameReceived i chars) s = .next t ∧
      (t.lane i).crc = crc32Feed (s.lane i).crc chunk ∧ (t.lane i).bytes = (s.lane i).bytes + chunk.length ∧
      (t.lane i).offset = (s.lane i).offset + chunk.length ∧ (t.lane i).block = (s.lane i).block ∧
      (t.lane i).segment = (s.lane i).segment ∧ (t.lane i).queue = [n] ∧ t.pool = s.pool ∧ t.slots = s.slots ∧
      t.ctl = s.ctl ∧ t.writer = s.writer ∧ t.supply = s.supply ∧ ∀ m : LaneId, m ≠ i → t.lane m = s.lane m) ∧
  (∀ (s : State) (i : LaneId) (n : SlotId) (j : Job) (q : Request) (chars payload : List Byte),
    s.working i n j q →
    (∀ (k : Nat) (g : Segment), s.completes i chars q.seq 0x81 payload → q.kind = .sum → payload.length = 4 →
      (s.lane i).step = .verifySum k → j.list[k]? = some g →
      (beNat payload ≠ g.crc.toNat → ∃ (t : State) (x : LaneResult), exec (.frameReceived i chars) s = .next t ∧
        t.resultOf n i = some x ∧ x.outcome = .verifyMismatch ∧ x.kind = some .sum ∧ x.addr = some g.target ∧
        (t.lane i).state = .ready ∧ (t.lane i).identity = (s.lane i).identity ∧ (t.lane i).queue = []) ∧
      (∀ g2 : Segment, beNat payload = g.crc.toNat → j.list[k + 1]? = some g2 → (s.lane i).pinned = none →
        (s.lane i).tx = .idle → s.ctl.device ≠ .fault →
        exec (.frameReceived i chars) s = .next (s.setLane i (Lane.withRequest
          { (s.lane i).answered with step := .verifySum (k + 1) } .sum
          (beBytes 4 g2.target.toNat ++ beBytes 4 g2.length)))) ∧
      (beNat payload = g.crc.toNat → k + 1 = j.list.length → ∃ t : State,
        exec (.frameReceived i chars) s = .next t ∧ t.outcomeOf n i = some .ok ∧
        (t.lane i).state = .ready ∧ (t.lane i).identity = (s.lane i).identity ∧ (t.lane i).queue = [])) ∧
    (∀ (off len stride : Nat) (target : BitVec 32) (dest : BitVec 64), s.completes i chars q.seq 0x82 payload →
      q.kind = .read → payload.length = readLength q → (s.lane i).step = .readbackRead off →
      j.spec.params = .readback target len dest stride → (s.lane i).pinned = none →
      exec (.frameReceived i chars) s = .next (s.setLane i { s.lane i with
        rx := none, outstanding := none, state := .ready, tx := (s.lane i).tx.orphaned
        bytes := (s.lane i).bytes + payload.length, step := .readbackWrite off
        readback := some
          { addr := dest + BitVec.ofNat 64
              ((allLanes.filter (fun m => inSet j.spec.lanes m && m.val < i.val)).length * stride + off)
            bytes := payload } })))

/-- The ACK to an ERASE stores the level that it carries. For a region: the next ERASE goes out at the address just past
the sectors asked for, with up to 255 of those left; with none left the first ERASE of the next region, or after the
last region the outcome OK. For the erase step of a segment: the erased-through address is just past the sectors asked
for, and the next ERASE goes out for up to 255 of the covering sectors at or above it; with none left the write step
begins, which waits for its block. -/
def Obligations.ErasesGoOnToTheEnd : Prop :=
  ∀ (s : State) (i : LaneId) (n : SlotId) (j : Job) (q : Request) (chars : List Byte) (level : Byte) (d : Identity)
    (k : Nat) (g : Segment),
    s.working i n j q → s.completes i chars q.seq 0x81 [level] → level.toNat ≤ 2 → q.kind = .erase →
    (s.lane i).identity = some d → (s.lane i).pinned = none → j.list[k]? = some g →
    let size := d.sectorSize.toNat
    let base := d.flashBase.toNat
    let asked := beField q.payload 4 1
    let l : Lane := { (s.lane i).answered with identity := some { d with level := level } }
    let sends := fun (x : Lane) (addr count : Nat) => (s.lane i).tx = .idle → s.ctl.device ≠ .fault →
      exec (.frameReceived i chars) s = .next (s.setLane i (x.withRequest .erase
        (beBytes 4 addr ++ [BitVec.ofNat 8 (min 255 count)])))
    (∀ done : Nat, (s.lane i).step = .eraseRegion k done →
      (done + asked < g.length / size → sends { l with step := .eraseRegion k (done + asked) }
        (g.target.toNat + (done + asked) * size) (g.length / size - (done + asked))) ∧
      (∀ g2 : Segment, g.length / size ≤ done + asked → j.list[k + 1]? = some g2 →
        sends { l with step := .eraseRegion (k + 1) 0 } g2.target.toNat (g2.length / size)) ∧
      (g.length / size ≤ done + asked → k + 1 = j.list.length → ∃ t : State,
        exec (.frameReceived i chars) s = .next t ∧ t.outcomeOf n i = some .ok ∧
        t.lane i = { l with queue := [], step := .none } ∧ t.ctl = s.ctl ∧
        ∀ m : LaneId, m ≠ i → t.lane m = s.lane m)) ∧
    ((s.lane i).step = .programErase k → 0 < size →
      let through := beField q.payload 0 4 + asked * size
      let low := max ((g.target.toNat - base) / size) ((through - base + (size - 1)) / size)
      let last := (g.target.toNat + g.length - 1 - base) / size
      (low ≤ last → sends { l with step := .programErase k, erasedThrough := through } (base + low * size)
        (last + 1 - low)) ∧
      (last < low → (∀ (b : BlockId) (x : Block) (data : List Byte), s.pool.block b = some x → x.slot = n →
          x.segment = (s.lane i).segment → x.index = (s.lane i).block → x.state ≠ .ready data) →
        exec (.frameReceived i chars) s = .next (s.setLane i
          { l with step := .programWrite k, erasedThrough := through })))

/-- The ACK to the WRITE of a block's last chunk: its bytes are fed to the accumulator and counted, the lane leaves the
block, which is freed when no lane is left on it, the cursor moves to the next block of the segment or to block 0 of the
next segment, and the window is filled there. At the end of a segment a CRC other than the one stated with HAS_CRC gives
IMAGE_CHECK at the segment's address; else with VERIFY_AFTER the SUM of the segment goes out; else the next segment
begins with a fresh accumulator, or after the last the outcome is OK. The ACK to that SUM: a value other than the lane's
own CRC gives VERIFY_MISMATCH at the segment's address, and the same value goes on to the next segment or to OK. The
model's choices in it: log 43. -/
def Obligations.BlocksAreConsumedAndSegmentsEnd : Prop :=
  ∀ (s : State) (i : LaneId) (n : SlotId) (j : Job) (q : Request) (chars : List Byte) (k : Nat) (g : Segment),
    s.working i n j q → (s.lane i).pinned = none → j.list[k]? = some g →
    let l := s.lane i
    let ends := fun v : Verdict => ∃ (t : State) (x : LaneResult), exec (.frameReceived i chars) s = .next t ∧
      t.resultOf n i = some x ∧ x.outcome = v.outcome ∧ x.nak = none ∧ x.kind = v.kind ∧ x.addr = v.addr ∧
      (t.lane i).state = .ready ∧ (t.lane i).identity = l.identity ∧ (t.lane i).queue = [] ∧
      (t.lane i).outstanding = none ∧ t.ctl = s.ctl ∧ ∀ m : LaneId, m ≠ i → t.lane m = s.lane m
    -- the write step or erase step of segment k + 1 begins with this pool
    let begins := fun p : Pool => ∃ t : State, exec (.frameReceived i chars) s = .next t ∧ t.pool = p ∧
      t.slots = s.slots ∧ t.ctl = s.ctl ∧ (t.lane i).crc = 0xFFFFFFFF ∧ (t.lane i).segment = k + 1 ∧
      (t.lane i).block = 0 ∧ (t.lane i).offset = 0 ∧ (t.lane i).queue = [n] ∧
      ((t.lane i).step = .programWrite (k + 1) ∨ (j.spec.flags.getLsbD 3 = true ∧ (t.lane i).step = .programErase (k + 1))) ∧
      (j.spec.flags.getLsbD 3 = false → (t.lane i).step = .programWrite (k + 1)) ∧
      ∀ m : LaneId, m ≠ i → t.lane m = s.lane m
    (∀ (chunk : List Byte) (b : BlockId) (x : Block) (data : List Byte), s.completes i chars q.seq 0x81 [] →
      q.kind = .write → l.step = .programWrite k → l.segment = k → chunk = q.payload.drop 4 → s.pool.sound →
      s.pool.block b = some x → x.slot = n → x.segment = k → x.index = l.block → x.state = .ready data →
      inSet x.refs i = true → l.block < (g.length + 127) / 128 →
      min 128 (g.length - 128 * l.block) ≤ l.offset + chunk.length →
      let fed := crc32Feed l.crc chunk
      let refs := x.refs &&& ~~~ laneBit i
      let left : Pool :=
        if refs = 0 then
          { s.pool with blocks := s.pool.blocks.set b.val none, freeList := s.pool.freeList ++ [b] }
        else { s.pool with blocks := s.pool.blocks.set b.val (some { x with refs := refs }) }
      let filled := fun key : Nat × Nat => (keysFrom j.list 7 key).foldl (Pool.want n j.list i) left
      let differs := g.hasCrc = true ∧ ~~~ fed ≠ g.crc
      (l.block + 1 < (g.length + 127) / 128 → ∃ t : State, exec (.frameReceived i chars) s = .next t ∧
        (t.lane i).crc = fed ∧ (t.lane i).bytes = l.bytes + chunk.length ∧ (t.lane i).segment = k ∧
        (t.lane i).block = l.block + 1 ∧ (t.lane i).offset = 0 ∧ (t.lane i).step = .programWrite k ∧
        (t.lane i).queue = [n] ∧ t.pool = filled (k, l.block + 1) ∧ t.slots = s.slots ∧ t.ctl = s.ctl ∧
        ∀ m : LaneId, m ≠ i → t.lane m = s.lane m) ∧
      (l.block + 1 = (g.length + 127) / 128 →
        (differs → ends { outcome := .imageCheck, nak := none, kind := none, addr := some g.target }) ∧
        (¬ differs → j.spec.flags.getLsbD 4 = true → l.tx = .idle → s.ctl.device ≠ .fault →
          exec (.frameReceived i chars) s = .next ((s.setPool (filled (k + 1, 0))).setLane i (Lane.withRequest
            { l.answered with
              crc := fed, bytes := l.bytes + chunk.length, segment := k + 1, block := 0, offset := 0
              step := .programVerify k }
            .sum (beBytes 4 g.target.toNat ++ beBytes 4 g.length)))) ∧
        (¬ differs → j.spec.flags.getLsbD 4 = false → k + 1 < j.list.length → begins (filled (k + 1, 0))) ∧
        (¬ differs → j.spec.flags.getLsbD 4 = false → k + 1 = j.list.length → ends (Verdict.plain .ok)))) ∧
    (∀ payload : List Byte, s.completes i chars q.seq 0x81 payload → payload.length = 4 → q.kind = .sum →
      l.step = .programVerify k → l.segment = k + 1 → l.block = 0 → l.offset = 0 →
      (beNat payload ≠ (~~~ l.crc).toNat →
        ends { outcome := .verifyMismatch, nak := none, kind := some .sum, addr := some g.target }) ∧
      (beNat payload = (~~~ l.crc).toNat → k + 1 < j.list.length → begins s.pool) ∧
      (beNat payload = (~~~ l.crc).toNat → k + 1 = j.list.length → ends (Verdict.plain .ok)))

/-- READBACK_WRITE_END: good, it leads to the READ of the next bytes, 128 or those left, in FAULT to none, or after the
last payload to outcome OK; failed, the job ends with HOST_WRITE at the address read, and the lane stays READY in its
session. The end of a write that a job whose part on the lane has ended left in flight, good or failed, is discarded;
the current job's request, which has waited for it, then goes out: IDENTIFY, START, PROTECT, ERASE of the whole flash,
SUM, READ, or the WRITE or nothing that CHUNK_SEND gives there. In FAULT, or with no step in hand, only the write is
gone. The model's choices in it: log 6, log 39. -/
def Obligations.ReadbackWriteEndGoesOn : Prop :=
  (∀ (s : State) (i : LaneId) (n : SlotId) (j : Job) (off len stride : Nat) (target : BitVec 32) (dest : BitVec 64)
    (o : HostWriteOut),
    (s.lane i).step = .readbackWrite off → (s.lane i).readback = some o → (s.lane i).queue = [n] →
    s.slot n = some j → j.results[i.val] = none → j.spec.params = .readback target len dest stride →
    let written : Lane := { s.lane i with readback := none, step := .readbackRead (off + 128) }
    (off + 128 < len → (s.setLane i written).mayRequest i → exec (.readbackWriteEnd .live i .good) s = .next (s.setLane i
      (written.withRequest .read
        (beBytes 4 (target.toNat + (off + 128)) ++ beBytes 2 (min 128 (len - (off + 128))))))) ∧
    (off + 128 < len → s.ctl.device = .fault → exec (.readbackWriteEnd .live i .good) s = .next (s.setLane i written)) ∧
    (len ≤ off + 128 → ∃ t : State, exec (.readbackWriteEnd .live i .good) s = .next t ∧
      t.outcomeOf n i = some .ok ∧ t.lane i = { s.lane i with queue := [], step := .none, readback := none } ∧
      t.ctl = s.ctl ∧ ∀ m : LaneId, m ≠ i → t.lane m = s.lane m) ∧
    ∃ (t : State) (x : LaneResult), exec (.readbackWriteEnd .live i .failed) s = .next t ∧
      t.resultOf n i = some x ∧ x.outcome = .hostWrite ∧ x.kind = some .read ∧
      x.addr = some (target + BitVec.ofNat 32 off) ∧
      t.lane i = { s.lane i with queue := [], step := .none, readback := none } ∧ t.ctl = s.ctl ∧
      ∀ m : LaneId, m ≠ i → t.lane m = s.lane m) ∧
  ∀ (s : State) (i : LaneId) (w : HostWrite) (o : HostWriteOut),
    (s.lane i).readback = some o → (∀ off : Nat, (s.lane i).step ≠ .readbackWrite off) →
    let l : Lane := { s.lane i with readback := none }
    exec (.readbackWriteEnd .live i w) s = .next s ∧
    ((s.lane i).step = .none ∨ (s.lane i).queue = [] ∨ ((s.lane i).state ≠ .ready ∧ (s.lane i).state ≠ .training) ∨
        (s.ctl.device = .fault ∧ ∀ k : Nat, (s.lane i).step ≠ .programErase k) →
      exec (.readbackWriteEnd .abandoned i w) s = .next (s.setLane i l)) ∧
    ∀ (n : SlotId) (rest : List SlotId) (j : Job), (s.lane i).queue = n :: rest → s.slot n = some j →
      let sends := fun (kind : ReqKind) (payload : List Byte) =>
        exec (.readbackWriteEnd .abandoned i w) s = .next (s.setLane i (l.withRequest kind payload))
      ((s.lane i).state = .training → (s.lane i).step = .attachIdentify → (s.lane i).outstanding = none →
        (s.lane i).tx = .idle → s.ctl.device ≠ .fault → sends .identify []) ∧
      ((s.setLane i l).mayRequest i →
        ((s.lane i).step = .attachIdentifyAgain → sends .identify []) ∧
        (∀ e : BitVec 32, (s.lane i).step = .detachStart → j.spec.params = .detach e →
          sends .start (beBytes 4 e.toNat)) ∧
        (∀ level : BitVec 8, (s.lane i).step = .protect → j.spec.params = .protect level → sends .protect [level]) ∧
        (∀ d : Identity, (s.lane i).step = .eraseAll → (s.lane i).identity = some d →
          sends .erase (beBytes 4 d.flashBase.toNat ++ [0])) ∧
        (∀ (k : Nat) (g : Segment), (s.lane i).step = .verifySum k → j.list[k]? = some g →
          sends .sum (beBytes 4 g.target.toNat ++ beBytes 4 g.length)) ∧
        (∀ (off len stride : Nat) (target : BitVec 32) (dest : BitVec 64), (s.lane i).step = .readbackRead off →
          j.spec.params = .readback target len dest stride →
          sends .read (beBytes 4 (target.toNat + off) ++ beBytes 2 (min 128 (len - off)))) ∧
        ∀ k : Nat, (s.lane i).step = .programWrite k →
          exec (.readbackWriteEnd .abandoned i w) s = exec (.chunkSend i) (s.setLane i l))

/-! ### What every step keeps -/

/-- What a lane's own commands do has no effect on any other lane, nor on Device Control. -/
def Obligations.LaneCommandsLeaveOtherLanes : Prop :=
  ∀ (c : Instr) (i : LaneId) (s t : State), laneOf c = some i → exec c s = .next t →
    t.ctl = s.ctl ∧ ∀ k : LaneId, k ≠ i → t.lane k = s.lane k

/-- HEADLINE. Every step keeps every lane in its row of R27, with at most one request outstanding and that exactly in
BUSY, sent by the step in hand, never unlocked without an identity record, and a pin only while an UNLOCK is
outstanding; and a readback host write, one at most, is in flight only while no request is outstanding, be it an ended
job's. -/
def Obligations.EveryStepKeepsLanesConforming : Prop :=
  ∀ s t : State, s.lanesConform → step s = .next t → t.lanesConform

/-- HEADLINE. Every step keeps each lane queue and its reservations at 4 places. The model's choices in it: log 28. -/
def Obligations.EveryStepKeepsQueuesWithinRoom : Prop :=
  ∀ s t : State, s.queuesFit → step s = .next t → t.queuesFit

/-- HEADLINE. Every step keeps the Staging Pool sound: every block is on the free list or carries a key, no two carry
the same, every block in use is referenced or in flight, and at most 16 reads are in flight. -/
def Obligations.EveryStepKeepsThePoolSound : Prop :=
  ∀ s t : State, s.pool.sound → step s = .next t → t.pool.sound

/-- HEADLINE. Every step keeps the pin count of every entry equal to the number of lanes whose pinned index names it. -/
def Obligations.EveryStepKeepsPinsMatching : Prop :=
  ∀ s t : State, s.lanesConform → s.pinsMatch → step s = .next t → t.pinsMatch

/-- HEADLINE. Every step keeps the completion ring sound, with the unreleased records within its size and a free entry
for a transaction in hand, the holding queue within 8 records and no candidate waiting twice. -/
def Obligations.EveryStepKeepsTheWriterSound : Prop :=
  ∀ s t : State, s.writer.ringSound ∧ s.writer.queuesSound → step s = .next t →
    t.writer.ringSound ∧ t.writer.queuesSound

/-- What every step keeps holds after a power-on reset. -/
def Obligations.ResetStateMeetsTheInvariants : Prop :=
  State.reset.lanesConform ∧ State.reset.queuesFit ∧ State.reset.pool.sound ∧ State.reset.pinsMatch ∧
    State.reset.writer.ringSound ∧ State.reset.writer.queuesSound
end

