-- ==== Sys2Proof/Laws/State.lean ====
section
/-! SUPPORT. What each update of State leaves of each field, true by rfl, and reading back what was written. -/

namespace Sys2Proof.Machine

variable (s : State)

@[simp] theorem State.setLane_ctl (i : LaneId) (l : Lane) : (s.setLane i l).ctl = s.ctl := rfl
@[simp] theorem State.setLane_intake (i : LaneId) (l : Lane) : (s.setLane i l).intake = s.intake := rfl
@[simp] theorem State.setLane_slots (i : LaneId) (l : Lane) : (s.setLane i l).slots = s.slots := rfl
@[simp] theorem State.setLane_lanes (i : LaneId) (l : Lane) : (s.setLane i l).lanes = s.lanes.set i.val l := rfl
@[simp] theorem State.setLane_pool (i : LaneId) (l : Lane) : (s.setLane i l).pool = s.pool := rfl
@[simp] theorem State.setLane_creds (i : LaneId) (l : Lane) : (s.setLane i l).creds = s.creds := rfl
@[simp] theorem State.setLane_supply (i : LaneId) (l : Lane) : (s.setLane i l).supply = s.supply := rfl
@[simp] theorem State.setLane_writer (i : LaneId) (l : Lane) : (s.setLane i l).writer = s.writer := rfl
@[simp] theorem State.setLane_pending (i : LaneId) (l : Lane) : (s.setLane i l).pending = s.pending := rfl

@[simp] theorem State.modLane_ctl (i : LaneId) (f : Lane → Lane) : (s.modLane i f).ctl = s.ctl := rfl
@[simp] theorem State.modLane_intake (i : LaneId) (f : Lane → Lane) : (s.modLane i f).intake = s.intake := rfl
@[simp] theorem State.modLane_slots (i : LaneId) (f : Lane → Lane) : (s.modLane i f).slots = s.slots := rfl
@[simp] theorem State.modLane_lanes (i : LaneId) (f : Lane → Lane) : (s.modLane i f).lanes = s.lanes.set i.val (f (s.lane i)) := rfl
@[simp] theorem State.modLane_pool (i : LaneId) (f : Lane → Lane) : (s.modLane i f).pool = s.pool := rfl
@[simp] theorem State.modLane_creds (i : LaneId) (f : Lane → Lane) : (s.modLane i f).creds = s.creds := rfl
@[simp] theorem State.modLane_supply (i : LaneId) (f : Lane → Lane) : (s.modLane i f).supply = s.supply := rfl
@[simp] theorem State.modLane_writer (i : LaneId) (f : Lane → Lane) : (s.modLane i f).writer = s.writer := rfl
@[simp] theorem State.modLane_pending (i : LaneId) (f : Lane → Lane) : (s.modLane i f).pending = s.pending := rfl

@[simp] theorem State.modRing_ctl (r : RingId) (f : Ring → Ring) : (s.modRing r f).ctl = s.ctl := rfl
@[simp] theorem State.modRing_intake (r : RingId) (f : Ring → Ring) : (s.modRing r f).intake = { s.intake with rings := s.intake.rings.set r.val (f (s.ring r)) } := rfl
@[simp] theorem State.modRing_slots (r : RingId) (f : Ring → Ring) : (s.modRing r f).slots = s.slots := rfl
@[simp] theorem State.modRing_lanes (r : RingId) (f : Ring → Ring) : (s.modRing r f).lanes = s.lanes := rfl
@[simp] theorem State.modRing_pool (r : RingId) (f : Ring → Ring) : (s.modRing r f).pool = s.pool := rfl
@[simp] theorem State.modRing_creds (r : RingId) (f : Ring → Ring) : (s.modRing r f).creds = s.creds := rfl
@[simp] theorem State.modRing_supply (r : RingId) (f : Ring → Ring) : (s.modRing r f).supply = s.supply := rfl
@[simp] theorem State.modRing_writer (r : RingId) (f : Ring → Ring) : (s.modRing r f).writer = s.writer := rfl
@[simp] theorem State.modRing_pending (r : RingId) (f : Ring → Ring) : (s.modRing r f).pending = s.pending := rfl

@[simp] theorem State.setSlot_ctl (n : SlotId) (j : Option Job) : (s.setSlot n j).ctl = s.ctl := rfl
@[simp] theorem State.setSlot_intake (n : SlotId) (j : Option Job) : (s.setSlot n j).intake = s.intake := rfl
@[simp] theorem State.setSlot_slots (n : SlotId) (j : Option Job) : (s.setSlot n j).slots = s.slots.set n.val j := rfl
@[simp] theorem State.setSlot_lanes (n : SlotId) (j : Option Job) : (s.setSlot n j).lanes = s.lanes := rfl
@[simp] theorem State.setSlot_pool (n : SlotId) (j : Option Job) : (s.setSlot n j).pool = s.pool := rfl
@[simp] theorem State.setSlot_creds (n : SlotId) (j : Option Job) : (s.setSlot n j).creds = s.creds := rfl
@[simp] theorem State.setSlot_supply (n : SlotId) (j : Option Job) : (s.setSlot n j).supply = s.supply := rfl
@[simp] theorem State.setSlot_writer (n : SlotId) (j : Option Job) : (s.setSlot n j).writer = s.writer := rfl
@[simp] theorem State.setSlot_pending (n : SlotId) (j : Option Job) : (s.setSlot n j).pending = s.pending := rfl

@[simp] theorem State.modCred_ctl (c : CredId) (f : Credential → Credential) : (s.modCred c f).ctl = s.ctl := rfl
@[simp] theorem State.modCred_intake (c : CredId) (f : Credential → Credential) : (s.modCred c f).intake = s.intake := rfl
@[simp] theorem State.modCred_slots (c : CredId) (f : Credential → Credential) : (s.modCred c f).slots = s.slots := rfl
@[simp] theorem State.modCred_lanes (c : CredId) (f : Credential → Credential) : (s.modCred c f).lanes = s.lanes := rfl
@[simp] theorem State.modCred_pool (c : CredId) (f : Credential → Credential) : (s.modCred c f).pool = s.pool := rfl
@[simp] theorem State.modCred_creds (c : CredId) (f : Credential → Credential) : (s.modCred c f).creds = s.creds.set c.val (f (s.cred c)) := rfl
@[simp] theorem State.modCred_supply (c : CredId) (f : Credential → Credential) : (s.modCred c f).supply = s.supply := rfl
@[simp] theorem State.modCred_writer (c : CredId) (f : Credential → Credential) : (s.modCred c f).writer = s.writer := rfl
@[simp] theorem State.modCred_pending (c : CredId) (f : Credential → Credential) : (s.modCred c f).pending = s.pending := rfl

@[simp] theorem State.setEngine_ctl (e : Engine) : (s.setEngine e).ctl = s.ctl := rfl
@[simp] theorem State.setEngine_intake (e : Engine) : (s.setEngine e).intake = { s.intake with engine := e } := rfl
@[simp] theorem State.setEngine_slots (e : Engine) : (s.setEngine e).slots = s.slots := rfl
@[simp] theorem State.setEngine_lanes (e : Engine) : (s.setEngine e).lanes = s.lanes := rfl
@[simp] theorem State.setEngine_pool (e : Engine) : (s.setEngine e).pool = s.pool := rfl
@[simp] theorem State.setEngine_creds (e : Engine) : (s.setEngine e).creds = s.creds := rfl
@[simp] theorem State.setEngine_supply (e : Engine) : (s.setEngine e).supply = s.supply := rfl
@[simp] theorem State.setEngine_writer (e : Engine) : (s.setEngine e).writer = s.writer := rfl
@[simp] theorem State.setEngine_pending (e : Engine) : (s.setEngine e).pending = s.pending := rfl

@[simp] theorem State.setPool_ctl (p : Pool) : (s.setPool p).ctl = s.ctl := rfl
@[simp] theorem State.setPool_intake (p : Pool) : (s.setPool p).intake = s.intake := rfl
@[simp] theorem State.setPool_slots (p : Pool) : (s.setPool p).slots = s.slots := rfl
@[simp] theorem State.setPool_lanes (p : Pool) : (s.setPool p).lanes = s.lanes := rfl
@[simp] theorem State.setPool_pool (p : Pool) : (s.setPool p).pool = p := rfl
@[simp] theorem State.setPool_creds (p : Pool) : (s.setPool p).creds = s.creds := rfl
@[simp] theorem State.setPool_supply (p : Pool) : (s.setPool p).supply = s.supply := rfl
@[simp] theorem State.setPool_writer (p : Pool) : (s.setPool p).writer = s.writer := rfl
@[simp] theorem State.setPool_pending (p : Pool) : (s.setPool p).pending = s.pending := rfl

@[simp] theorem State.raise_intake (b : IrqBits) : (s.raise b).intake = s.intake := rfl
@[simp] theorem State.raise_slots (b : IrqBits) : (s.raise b).slots = s.slots := rfl
@[simp] theorem State.raise_lanes (b : IrqBits) : (s.raise b).lanes = s.lanes := rfl
@[simp] theorem State.raise_pool (b : IrqBits) : (s.raise b).pool = s.pool := rfl
@[simp] theorem State.raise_creds (b : IrqBits) : (s.raise b).creds = s.creds := rfl
@[simp] theorem State.raise_supply (b : IrqBits) : (s.raise b).supply = s.supply := rfl
@[simp] theorem State.raise_writer (b : IrqBits) : (s.raise b).writer = s.writer := rfl
@[simp] theorem State.raise_pending (b : IrqBits) : (s.raise b).pending = s.pending := rfl

@[simp] theorem State.unblockSlot_ctl : (s.unblockSlot).ctl = s.ctl := rfl
@[simp] theorem State.unblockSlot_intake : (s.unblockSlot).intake = { s.intake with rings := s.intake.rings.map Ring.slotFreed } := rfl
@[simp] theorem State.unblockSlot_slots : (s.unblockSlot).slots = s.slots := rfl
@[simp] theorem State.unblockSlot_lanes : (s.unblockSlot).lanes = s.lanes := rfl
@[simp] theorem State.unblockSlot_pool : (s.unblockSlot).pool = s.pool := rfl
@[simp] theorem State.unblockSlot_creds : (s.unblockSlot).creds = s.creds := rfl
@[simp] theorem State.unblockSlot_supply : (s.unblockSlot).supply = s.supply := rfl
@[simp] theorem State.unblockSlot_writer : (s.unblockSlot).writer = s.writer := rfl
@[simp] theorem State.unblockSlot_pending : (s.unblockSlot).pending = s.pending := rfl

@[simp] theorem State.unblockLane_ctl (i : LaneId) : (s.unblockLane i).ctl = s.ctl := rfl
@[simp] theorem State.unblockLane_intake (i : LaneId) : (s.unblockLane i).intake = { s.intake with rings := s.intake.rings.map (fun r => r.laneFreed i) } := rfl
@[simp] theorem State.unblockLane_slots (i : LaneId) : (s.unblockLane i).slots = s.slots := rfl
@[simp] theorem State.unblockLane_lanes (i : LaneId) : (s.unblockLane i).lanes = s.lanes := rfl
@[simp] theorem State.unblockLane_pool (i : LaneId) : (s.unblockLane i).pool = s.pool := rfl
@[simp] theorem State.unblockLane_creds (i : LaneId) : (s.unblockLane i).creds = s.creds := rfl
@[simp] theorem State.unblockLane_supply (i : LaneId) : (s.unblockLane i).supply = s.supply := rfl
@[simp] theorem State.unblockLane_writer (i : LaneId) : (s.unblockLane i).writer = s.writer := rfl
@[simp] theorem State.unblockLane_pending (i : LaneId) : (s.unblockLane i).pending = s.pending := rfl

@[simp] theorem State.pushHolding_ctl (r : HeldRecord) : (s.pushHolding r).ctl = s.ctl := rfl
@[simp] theorem State.pushHolding_intake (r : HeldRecord) : (s.pushHolding r).intake = s.intake := rfl
@[simp] theorem State.pushHolding_slots (r : HeldRecord) : (s.pushHolding r).slots = s.slots := rfl
@[simp] theorem State.pushHolding_lanes (r : HeldRecord) : (s.pushHolding r).lanes = s.lanes := rfl
@[simp] theorem State.pushHolding_pool (r : HeldRecord) : (s.pushHolding r).pool = s.pool := rfl
@[simp] theorem State.pushHolding_creds (r : HeldRecord) : (s.pushHolding r).creds = s.creds := rfl
@[simp] theorem State.pushHolding_supply (r : HeldRecord) : (s.pushHolding r).supply = s.supply := rfl
@[simp] theorem State.pushHolding_writer (r : HeldRecord) : (s.pushHolding r).writer = { s.writer with holding := s.writer.holding ++ [r] } := rfl
@[simp] theorem State.pushHolding_pending (r : HeldRecord) : (s.pushHolding r).pending = s.pending := rfl

@[simp] theorem State.setTxn_ctl (t : Option Transaction) : (s.setTxn t).ctl = s.ctl := rfl
@[simp] theorem State.setTxn_intake (t : Option Transaction) : (s.setTxn t).intake = s.intake := rfl
@[simp] theorem State.setTxn_slots (t : Option Transaction) : (s.setTxn t).slots = s.slots := rfl
@[simp] theorem State.setTxn_lanes (t : Option Transaction) : (s.setTxn t).lanes = s.lanes := rfl
@[simp] theorem State.setTxn_pool (t : Option Transaction) : (s.setTxn t).pool = s.pool := rfl
@[simp] theorem State.setTxn_creds (t : Option Transaction) : (s.setTxn t).creds = s.creds := rfl
@[simp] theorem State.setTxn_supply (t : Option Transaction) : (s.setTxn t).supply = s.supply := rfl
@[simp] theorem State.setTxn_writer (t : Option Transaction) : (s.setTxn t).writer = { s.writer with txn := t } := rfl
@[simp] theorem State.setTxn_pending (t : Option Transaction) : (s.setTxn t).pending = s.pending := rfl
@[simp] theorem State.raise_ctl_device (b : IrqBits) : (s.raise b).ctl.device = s.ctl.device := rfl
@[simp] theorem State.raise_ctl_inForce (b : IrqBits) : (s.raise b).ctl.inForce = s.ctl.inForce := rfl
@[simp] theorem State.raise_ctl_messages (b : IrqBits) : (s.raise b).ctl.messages = s.ctl.messages := rfl
@[simp] theorem State.raise_ctl_irq (b : IrqBits) : (s.raise b).ctl.irq =
    { cq := s.ctl.irq.cq || b.cq, fault := s.ctl.irq.fault || b.fault, halt := s.ctl.irq.halt || b.halt } := rfl

/-! ### Reading a part that an update does not touch -/

@[simp] theorem State.setLane_slot (i : LaneId) (l : Lane) (k : SlotId) : (s.setLane i l).slot k = s.slot k := rfl
@[simp] theorem State.setLane_cred (i : LaneId) (l : Lane) (k : CredId) : (s.setLane i l).cred k = s.cred k := rfl
@[simp] theorem State.setLane_ring (i : LaneId) (l : Lane) (k : RingId) : (s.setLane i l).ring k = s.ring k := rfl

@[simp] theorem State.modLane_slot (i : LaneId) (f : Lane → Lane) (k : SlotId) : (s.modLane i f).slot k = s.slot k := rfl
@[simp] theorem State.modLane_cred (i : LaneId) (f : Lane → Lane) (k : CredId) : (s.modLane i f).cred k = s.cred k := rfl
@[simp] theorem State.modLane_ring (i : LaneId) (f : Lane → Lane) (k : RingId) : (s.modLane i f).ring k = s.ring k := rfl

@[simp] theorem State.modRing_lane (r : RingId) (f : Ring → Ring) (k : LaneId) : (s.modRing r f).lane k = s.lane k := rfl
@[simp] theorem State.modRing_slot (r : RingId) (f : Ring → Ring) (k : SlotId) : (s.modRing r f).slot k = s.slot k := rfl
@[simp] theorem State.modRing_cred (r : RingId) (f : Ring → Ring) (k : CredId) : (s.modRing r f).cred k = s.cred k := rfl

@[simp] theorem State.setSlot_lane (n : SlotId) (j : Option Job) (k : LaneId) : (s.setSlot n j).lane k = s.lane k := rfl
@[simp] theorem State.setSlot_cred (n : SlotId) (j : Option Job) (k : CredId) : (s.setSlot n j).cred k = s.cred k := rfl
@[simp] theorem State.setSlot_ring (n : SlotId) (j : Option Job) (k : RingId) : (s.setSlot n j).ring k = s.ring k := rfl

@[simp] theorem State.modCred_lane (c : CredId) (f : Credential → Credential) (k : LaneId) : (s.modCred c f).lane k = s.lane k := rfl
@[simp] theorem State.modCred_slot (c : CredId) (f : Credential → Credential) (k : SlotId) : (s.modCred c f).slot k = s.slot k := rfl
@[simp] theorem State.modCred_ring (c : CredId) (f : Credential → Credential) (k : RingId) : (s.modCred c f).ring k = s.ring k := rfl

@[simp] theorem State.setEngine_lane (e : Engine) (k : LaneId) : (s.setEngine e).lane k = s.lane k := rfl
@[simp] theorem State.setEngine_slot (e : Engine) (k : SlotId) : (s.setEngine e).slot k = s.slot k := rfl
@[simp] theorem State.setEngine_cred (e : Engine) (k : CredId) : (s.setEngine e).cred k = s.cred k := rfl
@[simp] theorem State.setEngine_ring (e : Engine) (k : RingId) : (s.setEngine e).ring k = s.ring k := rfl

@[simp] theorem State.setPool_lane (p : Pool) (k : LaneId) : (s.setPool p).lane k = s.lane k := rfl
@[simp] theorem State.setPool_slot (p : Pool) (k : SlotId) : (s.setPool p).slot k = s.slot k := rfl
@[simp] theorem State.setPool_cred (p : Pool) (k : CredId) : (s.setPool p).cred k = s.cred k := rfl
@[simp] theorem State.setPool_ring (p : Pool) (k : RingId) : (s.setPool p).ring k = s.ring k := rfl

@[simp] theorem State.raise_lane (b : IrqBits) (k : LaneId) : (s.raise b).lane k = s.lane k := rfl
@[simp] theorem State.raise_slot (b : IrqBits) (k : SlotId) : (s.raise b).slot k = s.slot k := rfl
@[simp] theorem State.raise_cred (b : IrqBits) (k : CredId) : (s.raise b).cred k = s.cred k := rfl
@[simp] theorem State.raise_ring (b : IrqBits) (k : RingId) : (s.raise b).ring k = s.ring k := rfl

@[simp] theorem State.unblockSlot_lane (k : LaneId) : (s.unblockSlot).lane k = s.lane k := rfl
@[simp] theorem State.unblockSlot_slot (k : SlotId) : (s.unblockSlot).slot k = s.slot k := rfl
@[simp] theorem State.unblockSlot_cred (k : CredId) : (s.unblockSlot).cred k = s.cred k := rfl

@[simp] theorem State.unblockLane_lane (i : LaneId) (k : LaneId) : (s.unblockLane i).lane k = s.lane k := rfl
@[simp] theorem State.unblockLane_slot (i : LaneId) (k : SlotId) : (s.unblockLane i).slot k = s.slot k := rfl
@[simp] theorem State.unblockLane_cred (i : LaneId) (k : CredId) : (s.unblockLane i).cred k = s.cred k := rfl

@[simp] theorem State.pushHolding_lane (r : HeldRecord) (k : LaneId) : (s.pushHolding r).lane k = s.lane k := rfl
@[simp] theorem State.pushHolding_slot (r : HeldRecord) (k : SlotId) : (s.pushHolding r).slot k = s.slot k := rfl
@[simp] theorem State.pushHolding_cred (r : HeldRecord) (k : CredId) : (s.pushHolding r).cred k = s.cred k := rfl
@[simp] theorem State.pushHolding_ring (r : HeldRecord) (k : RingId) : (s.pushHolding r).ring k = s.ring k := rfl

@[simp] theorem State.setTxn_lane (t : Option Transaction) (k : LaneId) : (s.setTxn t).lane k = s.lane k := rfl
@[simp] theorem State.setTxn_slot (t : Option Transaction) (k : SlotId) : (s.setTxn t).slot k = s.slot k := rfl
@[simp] theorem State.setTxn_cred (t : Option Transaction) (k : CredId) : (s.setTxn t).cred k = s.cred k := rfl
@[simp] theorem State.setTxn_ring (t : Option Transaction) (k : RingId) : (s.setTxn t).ring k = s.ring k := rfl

/-! ### Reading one part after an update -/

@[simp] theorem State.lane_setLane_self (i : LaneId) (l : Lane) : (s.setLane i l).lane i = l := by
  simp [State.lane]

theorem State.lane_setLane_ne {i j : LaneId} (h : j ≠ i) (l : Lane) : (s.setLane i l).lane j = s.lane j := by
  have h' : i.val ≠ j.val := fun e => h (Fin.ext e.symm)
  simp [State.lane, Vector.getElem_set_ne _ _ h']

@[simp] theorem State.lane_modLane_self (i : LaneId) (f : Lane → Lane) : (s.modLane i f).lane i = f (s.lane i) :=
  State.lane_setLane_self s i _

theorem State.lane_modLane_ne {i j : LaneId} (h : j ≠ i) (f : Lane → Lane) : (s.modLane i f).lane j = s.lane j :=
  State.lane_setLane_ne s h _

/-- Lane `j` after a change of lane `i`. -/
theorem State.lane_modLane (i j : LaneId) (f : Lane → Lane) :
    (s.modLane i f).lane j = if j = i then f (s.lane j) else s.lane j := by
  by_cases h : j = i
  · subst h; simp
  · simp [h, State.lane_modLane_ne s h]

@[simp] theorem State.slot_setSlot_self (n : SlotId) (j : Option Job) : (s.setSlot n j).slot n = j := by
  simp [State.slot]

theorem State.slot_setSlot_ne {n m : SlotId} (h : m ≠ n) (j : Option Job) : (s.setSlot n j).slot m = s.slot m := by
  have h' : n.val ≠ m.val := fun e => h (Fin.ext e.symm)
  simp [State.slot, Vector.getElem_set_ne _ _ h']

@[simp] theorem State.cred_modCred_self (c : CredId) (f : Credential → Credential) :
    (s.modCred c f).cred c = f (s.cred c) := by
  simp [State.cred]

theorem State.cred_modCred_ne {c d : CredId} (h : d ≠ c) (f : Credential → Credential) :
    (s.modCred c f).cred d = s.cred d := by
  have h' : c.val ≠ d.val := fun e => h (Fin.ext e.symm)
  simp [State.cred, Vector.getElem_set_ne _ _ h']

@[simp] theorem State.ring_modRing_self (r : RingId) (f : Ring → Ring) : (s.modRing r f).ring r = f (s.ring r) := by
  simp [State.ring]

theorem State.ring_modRing_ne {r q : RingId} (h : q ≠ r) (f : Ring → Ring) : (s.modRing r f).ring q = s.ring q := by
  have h' : r.val ≠ q.val := fun e => h (Fin.ext e.symm)
  simp [State.ring, Vector.getElem_set_ne _ _ h']

/-- Two states with the same lanes show the same lane `i`. -/
theorem State.lane_congr {s t : State} (h : s.lanes = t.lanes) (i : LaneId) : s.lane i = t.lane i := by
  simp [State.lane, h]

/-- Two states with the same slots show the same slot `n`. -/
theorem State.slot_congr {s t : State} (h : s.slots = t.slots) (n : SlotId) : s.slot n = t.slot n := by
  simp [State.slot, h]

/-- A changed slot: the job of slot `n` changed by `f`, and nothing else. -/
theorem State.modSlot_slot (n m : SlotId) (f : Job → Job) :
    (s.modSlot n f).slot m = if m = n then (s.slot m).map f else s.slot m := by
  unfold State.modSlot
  by_cases h : m = n
  · subst h
    split <;> simp_all
  · split <;> simp [h, State.slot_setSlot_ne s h]

/-- A change of a slot changes nothing but the slots. -/
@[simp] theorem State.modSlot_frame (n : SlotId) (f : Job → Job) :
    (s.modSlot n f).ctl = s.ctl ∧ (s.modSlot n f).intake = s.intake ∧ (s.modSlot n f).lanes = s.lanes
      ∧ (s.modSlot n f).pool = s.pool ∧ (s.modSlot n f).creds = s.creds ∧ (s.modSlot n f).supply = s.supply
      ∧ (s.modSlot n f).writer = s.writer ∧ (s.modSlot n f).pending = s.pending := by
  unfold State.modSlot
  split <;> simp

end Sys2Proof.Machine
end

