-- ==== Sys2Proof/Laws/Ops.lean ====
section
/-! SUPPORT. For each shared operation of Machine/Ops.lean, one lemma that says what it leaves unchanged, and for
those that change a lane, how the lane then stands. -/

namespace Sys2Proof.Machine

/-! ### Outputs (R26) -/

/-- Driving an output to the level that it has is no change. -/
@[simp] theorem outputChange_self (pin : OutputPin) (b : Bool) : outputChange pin b b = [] := by simp [outputChange]

/-- Driving an output to the other level is one change. -/
@[simp] theorem outputChange_not (pin : OutputPin) (b : Bool) :
    outputChange pin (!b) b = [{ pin := pin, on := b }] := by cases b <;> rfl

/-- MODE is at the level driven; the other outputs stand, and the change is recorded. -/
@[simp] theorem Lane.driveMode_outputs (l : Lane) (on : Bool) :
    (l.driveMode on).modePin = on ∧ (l.driveMode on).resetPin = l.resetPin ∧ (l.driveMode on).power = l.power
      ∧ (l.driveMode on).outputs = l.outputs ++ outputChange .mode l.modePin on := ⟨rfl, rfl, rfl, rfl⟩

/-- Driving an output leaves the lane's state, step, queue, session, request, pin, TXD and fault code. -/
@[simp] theorem Lane.driveMode_frame (l : Lane) (on : Bool) :
    (l.driveMode on).state = l.state ∧ (l.driveMode on).step = l.step ∧ (l.driveMode on).queue = l.queue
      ∧ (l.driveMode on).identity = l.identity ∧ (l.driveMode on).outstanding = l.outstanding
      ∧ (l.driveMode on).unlocked = l.unlocked ∧ (l.driveMode on).pinned = l.pinned ∧ (l.driveMode on).tx = l.tx
      ∧ (l.driveMode on).faultCode = l.faultCode :=
  ⟨rfl, rfl, rfl, rfl, rfl, rfl, rfl, rfl, rfl⟩

/-- RESET is at the level driven; the other outputs stand, and the change is recorded. -/
@[simp] theorem Lane.driveReset_outputs (l : Lane) (on : Bool) :
    (l.driveReset on).modePin = l.modePin ∧ (l.driveReset on).resetPin = on ∧ (l.driveReset on).power = l.power
      ∧ (l.driveReset on).outputs = l.outputs ++ outputChange .reset l.resetPin on := ⟨rfl, rfl, rfl, rfl⟩

/-- Driving an output leaves the lane's state, step, queue, session, request, pin, TXD and fault code. -/
@[simp] theorem Lane.driveReset_frame (l : Lane) (on : Bool) :
    (l.driveReset on).state = l.state ∧ (l.driveReset on).step = l.step ∧ (l.driveReset on).queue = l.queue
      ∧ (l.driveReset on).identity = l.identity ∧ (l.driveReset on).outstanding = l.outstanding
      ∧ (l.driveReset on).unlocked = l.unlocked ∧ (l.driveReset on).pinned = l.pinned ∧ (l.driveReset on).tx = l.tx
      ∧ (l.driveReset on).faultCode = l.faultCode :=
  ⟨rfl, rfl, rfl, rfl, rfl, rfl, rfl, rfl, rfl⟩

/-- POWER is at the level driven; the other outputs stand, and the change is recorded. -/
@[simp] theorem Lane.drivePower_outputs (l : Lane) (on : Bool) :
    (l.drivePower on).modePin = l.modePin ∧ (l.drivePower on).resetPin = l.resetPin ∧ (l.drivePower on).power = on
      ∧ (l.drivePower on).outputs = l.outputs ++ outputChange .power l.power on := ⟨rfl, rfl, rfl, rfl⟩

/-- Driving an output leaves the lane's state, step, queue, session, request, pin, TXD and fault code. -/
@[simp] theorem Lane.drivePower_frame (l : Lane) (on : Bool) :
    (l.drivePower on).state = l.state ∧ (l.drivePower on).step = l.step ∧ (l.drivePower on).queue = l.queue
      ∧ (l.drivePower on).identity = l.identity ∧ (l.drivePower on).outstanding = l.outstanding
      ∧ (l.drivePower on).unlocked = l.unlocked ∧ (l.drivePower on).pinned = l.pinned ∧ (l.drivePower on).tx = l.tx
      ∧ (l.drivePower on).faultCode = l.faultCode :=
  ⟨rfl, rfl, rfl, rfl, rfl, rfl, rfl, rfl, rfl⟩

/-! ### Interrupts and device FAULT -/

/-- A message changes only its count. -/
@[simp] theorem withMessage_frame (b s : State) :
    (withMessage b s).intake = s.intake ∧ (withMessage b s).slots = s.slots ∧ (withMessage b s).lanes = s.lanes
      ∧ (withMessage b s).pool = s.pool ∧ (withMessage b s).creds = s.creds ∧ (withMessage b s).supply = s.supply
      ∧ (withMessage b s).writer = s.writer ∧ (withMessage b s).pending = s.pending
      ∧ (withMessage b s).ctl.device = s.ctl.device ∧ (withMessage b s).ctl.irq = s.ctl.irq
      ∧ (withMessage b s).ctl.inForce = s.ctl.inForce := by
  unfold withMessage; split <;> simp

/-- A failed transfer changes Device Control alone. -/
@[simp] theorem deviceFault_frame (s : State) (c : Cause) :
    (deviceFault s c).intake = s.intake ∧ (deviceFault s c).slots = s.slots ∧ (deviceFault s c).lanes = s.lanes
      ∧ (deviceFault s c).pool = s.pool ∧ (deviceFault s c).creds = s.creds ∧ (deviceFault s c).supply = s.supply
      ∧ (deviceFault s c).writer = s.writer ∧ (deviceFault s c).pending = s.pending := by
  unfold deviceFault; split <;> simp

/-- After a failed transfer the device is in FAULT. -/
@[simp] theorem deviceFault_device (s : State) (c : Cause) : (deviceFault s c).ctl.device = .fault := by
  unfold deviceFault; split <;> simp_all

/-- The drain changes Device Control alone. -/
@[simp] theorem drainIfComplete_frame (s : State) :
    (drainIfComplete s).intake = s.intake ∧ (drainIfComplete s).slots = s.slots ∧ (drainIfComplete s).lanes = s.lanes
      ∧ (drainIfComplete s).pool = s.pool ∧ (drainIfComplete s).creds = s.creds
      ∧ (drainIfComplete s).supply = s.supply ∧ (drainIfComplete s).writer = s.writer
      ∧ (drainIfComplete s).pending = s.pending := by
  unfold drainIfComplete; split <;> simp

/-! ### Rings -/

theorem foldl_keeps {α β γ : Type} (g : β → γ) (f : β → α → β) (h : ∀ b a, g (f b a) = g b) (l : List α) (b : β) :
    g (l.foldl f b) = g b := by
  induction l generalizing b with
  | nil => rfl
  | cons a l ih => simp [ih, h]

/-- Telling the rings of room on a set of lanes changes the rings alone. -/
@[simp] theorem State.unblockLanes_frame (s : State) (m : BitVec 16) :
    (s.unblockLanes m).ctl = s.ctl ∧ (s.unblockLanes m).slots = s.slots ∧ (s.unblockLanes m).lanes = s.lanes
      ∧ (s.unblockLanes m).pool = s.pool ∧ (s.unblockLanes m).creds = s.creds ∧ (s.unblockLanes m).supply = s.supply
      ∧ (s.unblockLanes m).writer = s.writer ∧ (s.unblockLanes m).pending = s.pending := by
  unfold State.unblockLanes
  refine ⟨?_, ?_, ?_, ?_, ?_, ?_, ?_, ?_⟩
  · exact foldl_keeps State.ctl State.unblockLane (fun _ _ => rfl) _ _
  · exact foldl_keeps State.slots State.unblockLane (fun _ _ => rfl) _ _
  · exact foldl_keeps State.lanes State.unblockLane (fun _ _ => rfl) _ _
  · exact foldl_keeps State.pool State.unblockLane (fun _ _ => rfl) _ _
  · exact foldl_keeps State.creds State.unblockLane (fun _ _ => rfl) _ _
  · exact foldl_keeps State.supply State.unblockLane (fun _ _ => rfl) _ _
  · exact foldl_keeps State.writer State.unblockLane (fun _ _ => rfl) _ _
  · exact foldl_keeps State.pending State.unblockLane (fun _ _ => rfl) _ _

/-! ### The holding queue -/

/-- Joining the wait list changes the writer alone. -/
@[simp] theorem State.joinWait_frame (s : State) (c : Candidate) :
    (s.joinWait c).ctl = s.ctl ∧ (s.joinWait c).intake = s.intake ∧ (s.joinWait c).slots = s.slots
      ∧ (s.joinWait c).lanes = s.lanes ∧ (s.joinWait c).pool = s.pool ∧ (s.joinWait c).creds = s.creds
      ∧ (s.joinWait c).supply = s.supply ∧ (s.joinWait c).pending = s.pending := by
  unfold State.joinWait; split <;> simp

/-- Offering a job changes the writer alone. -/
@[simp] theorem offerJob_frame (s : State) (n : SlotId) :
    (offerJob s n).ctl = s.ctl ∧ (offerJob s n).intake = s.intake ∧ (offerJob s n).slots = s.slots
      ∧ (offerJob s n).lanes = s.lanes ∧ (offerJob s n).pool = s.pool ∧ (offerJob s n).creds = s.creds
      ∧ (offerJob s n).supply = s.supply ∧ (offerJob s n).pending = s.pending := by
  unfold offerJob; split <;> simp

/-- Offering a job when its blocks allow changes the writer alone. -/
@[simp] theorem offerIfClear_frame (s : State) (n : SlotId) :
    (offerIfClear s n).ctl = s.ctl ∧ (offerIfClear s n).intake = s.intake ∧ (offerIfClear s n).slots = s.slots
      ∧ (offerIfClear s n).lanes = s.lanes ∧ (offerIfClear s n).pool = s.pool ∧ (offerIfClear s n).creds = s.creds
      ∧ (offerIfClear s n).supply = s.supply ∧ (offerIfClear s n).pending = s.pending := by
  unfold offerIfClear; repeat' split
  all_goals simp

/-- The retiring of a job changes the slots and the writer alone. -/
@[simp] theorem retireIfDone_frame (s : State) (n : SlotId) :
    (retireIfDone s n).ctl = s.ctl ∧ (retireIfDone s n).intake = s.intake ∧ (retireIfDone s n).lanes = s.lanes
      ∧ (retireIfDone s n).pool = s.pool ∧ (retireIfDone s n).creds = s.creds
      ∧ (retireIfDone s n).supply = s.supply ∧ (retireIfDone s n).pending = s.pending := by
  unfold retireIfDone; repeat' split
  all_goals simp

/-- The retiring of a barrier changes slots, rings and the writer alone. -/
@[simp] theorem retireBarrier_frame (s : State) (n : SlotId) (st : Status) :
    (retireBarrier s n st).ctl = s.ctl ∧ (retireBarrier s n st).lanes = s.lanes ∧ (retireBarrier s n st).pool = s.pool
      ∧ (retireBarrier s n st).creds = s.creds ∧ (retireBarrier s n st).supply = s.supply
      ∧ (retireBarrier s n st).pending = s.pending := by
  unfold retireBarrier; split <;> simp

/-- Leaving a wait set changes slots, rings and the writer alone. -/
@[simp] theorem leaveWaitSet_frame (s : State) (n m : SlotId) :
    (leaveWaitSet n s m).ctl = s.ctl ∧ (leaveWaitSet n s m).lanes = s.lanes ∧ (leaveWaitSet n s m).pool = s.pool
      ∧ (leaveWaitSet n s m).creds = s.creds ∧ (leaveWaitSet n s m).supply = s.supply
      ∧ (leaveWaitSet n s m).pending = s.pending := by
  unfold leaveWaitSet; dsimp only; repeat' split
  all_goals simp

/-- The freeing of a slot changes slots, rings and the writer alone. -/
@[simp] theorem freeSlot_frame (s : State) (n : SlotId) :
    (freeSlot s n).ctl = s.ctl ∧ (freeSlot s n).lanes = s.lanes ∧ (freeSlot s n).pool = s.pool
      ∧ (freeSlot s n).creds = s.creds ∧ (freeSlot s n).supply = s.supply ∧ (freeSlot s n).pending = s.pending := by
  unfold freeSlot
  refine ⟨?_, ?_, ?_, ?_, ?_, ?_⟩ <;> simp only [State.unblockSlot_ctl, State.unblockSlot_lanes, State.unblockSlot_pool,
    State.unblockSlot_creds, State.unblockSlot_supply, State.unblockSlot_pending]
  · exact foldl_keeps State.ctl _ (fun b a => (leaveWaitSet_frame b n a).1) _ _
  · exact foldl_keeps State.lanes _ (fun b a => (leaveWaitSet_frame b n a).2.1) _ _
  · exact foldl_keeps State.pool _ (fun b a => (leaveWaitSet_frame b n a).2.2.1) _ _
  · exact foldl_keeps State.creds _ (fun b a => (leaveWaitSet_frame b n a).2.2.2.1) _ _
  · exact foldl_keeps State.supply _ (fun b a => (leaveWaitSet_frame b n a).2.2.2.2.1) _ _
  · exact foldl_keeps State.pending _ (fun b a => (leaveWaitSet_frame b n a).2.2.2.2.2) _ _

/-- A candidate's entry into the holding queue leaves Device Control, pool, credentials, supply and queue. -/
@[simp] theorem enterHolding_frame (s : State) (c : Candidate) :
    (enterHolding s c).ctl = s.ctl ∧ (enterHolding s c).pool = s.pool ∧ (enterHolding s c).creds = s.creds
      ∧ (enterHolding s c).supply = s.supply ∧ (enterHolding s c).pending = s.pending := by
  unfold enterHolding; dsimp only; repeat' split
  all_goals simp

/-- A lane's part of a holding queue entry: only its pending event may become absent (R49). -/
theorem enterHolding_lane (s : State) (c : Candidate) (i : LaneId) :
    (enterHolding s c).lane i = s.lane i
      ∨ (c = .laneEvent i ∧ (enterHolding s c).lane i = { s.lane i with pendingEvent := none }) := by
  cases c with
  | job n => exact .inl rfl
  | engine => left; unfold enterHolding; dsimp only; split <;> exact State.lane_congr (by simp) i
  | intakeJob n =>
    left; unfold enterHolding; dsimp only; repeat' split
    all_goals exact State.lane_congr (by simp) i
  | laneEvent j =>
    unfold enterHolding; dsimp only; split
    · exact .inl rfl
    · by_cases h : i = j
      · subst h; right; exact ⟨rfl, by simp⟩
      · left; rw [State.lane_modLane_ne _ h]; rfl

/-- An offer leaves what an entry leaves. -/
@[simp] theorem offer_frame (s : State) (c : Candidate) :
    (offer s c).ctl = s.ctl ∧ (offer s c).pool = s.pool ∧ (offer s c).creds = s.creds
      ∧ (offer s c).supply = s.supply ∧ (offer s c).pending = s.pending := by
  unfold offer; split <;> simp

/-- A lane after an offer. -/
theorem offer_lane (s : State) (c : Candidate) (i : LaneId) :
    (offer s c).lane i = s.lane i
      ∨ (c = .laneEvent i ∧ (offer s c).lane i = { s.lane i with pendingEvent := none }) := by
  unfold offer; split
  · exact enterHolding_lane s c i
  · exact .inl (State.lane_congr (by simp) i)

/-- A promotion leaves what an entry leaves. -/
@[simp] theorem promote_frame (s : State) :
    (promote s).ctl = s.ctl ∧ (promote s).pool = s.pool ∧ (promote s).creds = s.creds
      ∧ (promote s).supply = s.supply ∧ (promote s).pending = s.pending := by
  unfold promote; split
  · simp
  · split <;> simp

/-- A lane after a promotion: at most its pending event has become absent. -/
theorem promote_lane (s : State) (i : LaneId) :
    (promote s).lane i = s.lane i ∨ (promote s).lane i = { s.lane i with pendingEvent := none } := by
  unfold promote; split
  · exact .inl rfl
  · split
    · rcases enterHolding_lane
        { s with writer := { s.writer with waitList := ‹_› } } ‹_› i with h | ⟨-, h⟩
      · exact .inl h
      · exact .inr h
    · exact .inl rfl

/-- A completion at intake leaves what an entry leaves, and every lane. -/
@[simp] theorem postIntake_frame (s : State) (c : IntakeCompletion) :
    (postIntake s c).ctl = s.ctl ∧ (postIntake s c).pool = s.pool ∧ (postIntake s c).creds = s.creds
      ∧ (postIntake s c).supply = s.supply ∧ (postIntake s c).pending = s.pending := by
  unfold postIntake; simp

theorem postIntake_lane (s : State) (c : IntakeCompletion) (i : LaneId) : (postIntake s c).lane i = s.lane i := by
  unfold postIntake
  rcases offer_lane (s.setEngine (.waiting c)) .engine i with h | ⟨h, -⟩
  · exact h
  · cases h

/-! ### Switches and pins -/

/-- A voided conversion changes the supply monitor alone. -/
@[simp] theorem voidConversion_frame (s : State) (i : LaneId) :
    (voidConversion s i).ctl = s.ctl ∧ (voidConversion s i).intake = s.intake ∧ (voidConversion s i).slots = s.slots
      ∧ (voidConversion s i).lanes = s.lanes ∧ (voidConversion s i).pool = s.pool
      ∧ (voidConversion s i).creds = s.creds ∧ (voidConversion s i).writer = s.writer
      ∧ (voidConversion s i).pending = s.pending := by
  unfold voidConversion; repeat' split
  all_goals simp

/-- A switch going off changes its lane and the converter alone. -/
@[simp] theorem switchOff_frame (s : State) (i : LaneId) :
    (switchOff s i).ctl = s.ctl ∧ (switchOff s i).intake = s.intake ∧ (switchOff s i).slots = s.slots
      ∧ (switchOff s i).pool = s.pool ∧ (switchOff s i).creds = s.creds ∧ (switchOff s i).writer = s.writer
      ∧ (switchOff s i).pending = s.pending := by
  unfold switchOff; split <;> simp

/-- The lanes after a switch has gone off (R110, R115). -/
theorem switchOff_lane (s : State) (i j : LaneId) :
    (switchOff s i).lane j = if j = i ∧ (s.lane i).power then (s.lane i).powerOff else s.lane j := by
  unfold switchOff
  by_cases hp : (s.lane i).power
  · rw [if_pos hp, State.lane_modLane]
    have h : (voidConversion s i).lane j = s.lane j := State.lane_congr (by simp) j
    by_cases hj : j = i
    · subst hj; simp [hp, h]
    · simp [hj, h]
  · simp [hp]

/-- The release of a pin changes the lane and the entry alone. -/
@[simp] theorem releasePin_frame (s : State) (i : LaneId) :
    (releasePin s i).ctl = s.ctl ∧ (releasePin s i).intake = s.intake ∧ (releasePin s i).slots = s.slots
      ∧ (releasePin s i).pool = s.pool ∧ (releasePin s i).supply = s.supply ∧ (releasePin s i).writer = s.writer
      ∧ (releasePin s i).pending = s.pending := by
  unfold releasePin; split <;> simp

/-- The lanes after the release of a pin (R101). -/
theorem releasePin_lane (s : State) (i j : LaneId) :
    (releasePin s i).lane j = if j = i then { s.lane i with pinned := none } else s.lane j := by
  unfold releasePin; split
  · next h =>
    by_cases hj : j = i
    · subst hj; rw [if_pos rfl]; rw [← h]
    · simp [hj]
  · next c h =>
    rw [State.lane_modLane]
    have hl : (s.modCred c (fun e => { e with pins := e.pins - 1 })).lane j = s.lane j := State.lane_congr (by simp) j
    by_cases hj : j = i
    · subst hj; simp [hl]
    · simp [hj, hl]

end Sys2Proof.Machine
end

