-- ==== Sys2Proof/Laws/Lanes.lean ====
section
/-! SUPPORT. What each operation of a Lane Engine leaves unchanged: Device Control, the command queue, and every
other lane. -/

namespace Sys2Proof.Machine

/-- `t` differs from `s` neither in Device Control nor in the command queue nor in a lane other than `i`. -/
def LaneLocal (i : LaneId) (s t : State) : Prop :=
  t.ctl = s.ctl ∧ t.pending = s.pending ∧ ∀ j, j ≠ i → t.lane j = s.lane j

theorem LaneLocal.rfl' (i : LaneId) (s : State) : LaneLocal i s s := ⟨rfl, rfl, fun _ _ => rfl⟩

theorem LaneLocal.trans {i : LaneId} {s t u : State} (h : LaneLocal i s t) (k : LaneLocal i t u) :
    LaneLocal i s u :=
  ⟨k.1.trans h.1, k.2.1.trans h.2.1, fun j hj => (k.2.2 j hj).trans (h.2.2 j hj)⟩

/-- A state with the same control, queue and lanes. -/
theorem LaneLocal.of_lanes {i : LaneId} {s t : State} (h : t.ctl = s.ctl) (hp : t.pending = s.pending)
    (hl : t.lanes = s.lanes) : LaneLocal i s t :=
  ⟨h, hp, fun j _ => State.lane_congr hl j⟩

theorem modLane_local (s : State) (i : LaneId) (f : Lane → Lane) : LaneLocal i s (s.modLane i f) :=
  ⟨rfl, rfl, fun _ hj => State.lane_modLane_ne s hj f⟩

theorem modSlot_local (s : State) (i : LaneId) (n : SlotId) (f : Job → Job) : LaneLocal i s (s.modSlot n f) :=
  .of_lanes (by simp) (by simp) (by simp)

theorem setPool_local (s : State) (i : LaneId) (p : Pool) : LaneLocal i s (s.setPool p) := .of_lanes rfl rfl rfl

theorem unblockLane_local (s : State) (i k : LaneId) : LaneLocal i s (s.unblockLane k) := .of_lanes rfl rfl rfl

theorem modCred_local (s : State) (i : LaneId) (c : CredId) (f : Credential → Credential) :
    LaneLocal i s (s.modCred c f) := .of_lanes rfl rfl rfl

theorem retireIfDone_local (s : State) (i : LaneId) (n : SlotId) : LaneLocal i s (retireIfDone s n) :=
  .of_lanes (by simp) (by simp) (by simp)

theorem switchOff_local (s : State) (i : LaneId) : LaneLocal i s (switchOff s i) :=
  ⟨by simp, by simp, fun j hj => by rw [switchOff_lane]; simp [hj]⟩

theorem releasePin_local (s : State) (i : LaneId) : LaneLocal i s (releasePin s i) :=
  ⟨by simp, by simp, fun j hj => by rw [releasePin_lane]; simp [hj]⟩

/-- All that a lane needs to start a request (R1, R21, R33, R37, R69). -/
theorem canSend_iff (s : State) (i : LaneId) :
    canSend s i = true ↔ s.ctl.device ≠ .fault ∧ (s.lane i).outstanding = none ∧ (s.lane i).tx = .idle ∧
      (s.lane i).readback = none ∧ ((s.lane i).state = .ready ∨ (s.lane i).state = .training) := by
  simp [canSend, and_assoc]

/-- A lane with a readback host write in flight sends no request (R69). -/
theorem send_of_readback (s : State) (i : LaneId) (k : ReqKind) (p : List Byte) (h : (s.lane i).readback ≠ none) :
    send s i k p = s := by
  unfold send; rw [if_neg]; rw [canSend_iff]; exact fun c => h c.2.2.2.1

theorem send_local (s : State) (i : LaneId) (k : ReqKind) (p : List Byte) : LaneLocal i s (send s i k p) := by
  unfold send; split
  · exact modLane_local _ _ _
  · exact .rfl' _ _

theorem retransmitAtOnce_local (s : State) (i : LaneId) : LaneLocal i s (retransmitAtOnce s i) := by
  unfold retransmitAtOnce; repeat' split
  all_goals first | exact modLane_local _ _ _ | exact .rfl' _ _

theorem closeJob_local (s : State) (i : LaneId) (n : SlotId) (r : LaneResult) : LaneLocal i s (closeJob s i n r) := by
  unfold closeJob
  exact ((modSlot_local s i n _).trans ((setPool_local _ i _).trans ((modLane_local _ i _).trans
    ((unblockLane_local _ i i).trans (retireIfDone_local _ i n)))))

/-- The end of a lane's part of a job leaves its readback host write in flight (R69). -/
theorem closeJob_readback (s : State) (i : LaneId) (n : SlotId) (r : LaneResult) :
    ((closeJob s i n r).lane i).readback = (s.lane i).readback := by
  unfold closeJob; dsimp only; rw [State.lane_congr (retireIfDone_frame _ n).2.2.1 i]; simp
  exact congrArg Lane.readback (State.lane_congr (by simp) i)

theorem removeJob_local (s : State) (i : LaneId) (n : SlotId) (j : Job) (v : Verdict) :
    LaneLocal i s (removeJob s i n j v) := by
  unfold removeJob
  exact ((modSlot_local s i n _).trans ((modLane_local _ i _).trans
    ((unblockLane_local _ i i).trans (retireIfDone_local _ i n))))

theorem fillWindow_local (s : State) (i : LaneId) (n : SlotId) (j : Job) : LaneLocal i s (fillWindow s i n j) :=
  setPool_local _ _ _

theorem credentialStep_local (s : State) (i : LaneId) (sel : Selector) : LaneLocal i s (credentialStep s i sel).1 := by
  unfold credentialStep; repeat' split
  all_goals first
    | exact .rfl' _ _
    | exact (modCred_local _ i _ _).trans ((modLane_local _ i _).trans (send_local _ i _ _))

theorem unlockDecision_local (s : State) (i : LaneId) (p : AttachParams) : LaneLocal i s (unlockDecision s i p).1 := by
  unfold unlockDecision; repeat' split
  all_goals first
    | exact .rfl' _ _
    | exact (modLane_local _ i _).trans (credentialStep_local _ i _)

theorem rateDecision_local (s : State) (i : LaneId) (p : AttachParams) : LaneLocal i s (rateDecision s i p).1 := by
  unfold rateDecision; repeat' split
  all_goals first
    | exact .rfl' _ _
    | exact unlockDecision_local _ _ _
    | exact (modLane_local _ i _).trans (send_local _ i _ _)

theorem sendChunk_local (s : State) (i : LaneId) (n : SlotId) (g : Segment) : LaneLocal i s (sendChunk s i n g) := by
  unfold sendChunk; repeat' split
  all_goals first | exact .rfl' _ _ | exact send_local _ i _ _

theorem programErase_local (s : State) (i : LaneId) (n : SlotId) (k : Nat) (g : Segment) :
    LaneLocal i s (programErase s i n k g) := by
  unfold programErase; dsimp only; split
  · exact (modLane_local _ i _).trans (sendChunk_local _ i _ _)
  · exact send_local _ i _ _

theorem proceed_local (s : State) (i : LaneId) : LaneLocal i s (proceed s i).1 := by
  unfold proceed; dsimp only; repeat' split
  all_goals first
    | exact .rfl' _ _
    | exact send_local _ i _ _
    | exact credentialStep_local _ i _
    | exact programErase_local _ i _ _ _
    | exact sendChunk_local _ i _ _

theorem enterStep_local (s : State) (i : LaneId) (st : Step) : LaneLocal i s (enterStep s i st).1 := by
  unfold enterStep
  exact (modLane_local _ i _).trans (proceed_local _ i)

theorem attachTakeUp_local (s : State) (i : LaneId) (p : AttachParams) : LaneLocal i s (attachTakeUp s i p) :=
  (releasePin_local s i).trans (modLane_local _ i _)

theorem detachOff_local (s : State) (i : LaneId) : LaneLocal i s (detachOff s i) :=
  (releasePin_local s i).trans ((modLane_local _ i _).trans (switchOff_local _ i))

theorem firstStep_local (s : State) (i : LaneId) (n : SlotId) (j : Job) : LaneLocal i s (firstStep s i n j).1 := by
  unfold firstStep; repeat' split
  all_goals first
    | exact .rfl' _ _
    | exact enterStep_local _ i _

theorem sessionJobTakeUp_local (s : State) (i : LaneId) (n : SlotId) (j : Job) :
    LaneLocal i s (sessionJobTakeUp s i n j).1 := by
  unfold sessionJobTakeUp; repeat' split
  all_goals first | exact .rfl' _ _ | exact firstStep_local _ i _ _

theorem takeUp_local (s : State) (i : LaneId) (n : SlotId) : LaneLocal i s (takeUp s i n).1 := by
  unfold takeUp; dsimp only; repeat' split
  all_goals first
    | exact .rfl' _ _
    | exact modLane_local _ i _
    | exact (modLane_local _ i _).trans (attachTakeUp_local _ i _)
    | exact (modLane_local _ i _).trans (enterStep_local _ i _)
    | exact (modLane_local _ i _).trans (detachOff_local _ i)
    | exact (modLane_local _ i _).trans (sessionJobTakeUp_local _ i _ _)

theorem becomeCurrent_local (s : State) (i : LaneId) (n : SlotId) : LaneLocal i s (becomeCurrent s i n) :=
  (modSlot_local s i n _).trans (modLane_local _ i _)

theorem conclude_local (s : State) (i : LaneId) (n : SlotId) (v : Verdict) : LaneLocal i s (conclude s i n v) := by
  unfold conclude; split <;> exact closeJob_local _ i _ _

theorem settle_local (fuel : Nat) (s : State) (i : LaneId) : LaneLocal i s (settle fuel s i) := by
  induction fuel generalizing s with
  | zero => exact .rfl' _ _
  | succ fuel ih =>
    unfold settle; dsimp only
    split
    · exact .rfl' _ _
    · next n _ _ =>
      have hb := becomeCurrent_local s i n
      split
      · exact hb
      · have ht := takeUp_local (becomeCurrent s i n) i n
        split
        · next s2 heq => rw [heq] at ht; exact hb.trans ht
        · next s2 v heq => rw [heq] at ht; exact hb.trans (ht.trans ((conclude_local s2 i n v).trans (ih _)))

theorem nextJob_local (s : State) (i : LaneId) : LaneLocal i s (nextJob s i) := settle_local _ s i

theorem finishLane_local (s : State) (i : LaneId) (v : Verdict) : LaneLocal i s (finishLane s i v) := by
  unfold finishLane; split
  · exact .rfl' _ _
  · exact (conclude_local _ i _ _).trans (nextJob_local _ i)

theorem resolveStep_local {i : LaneId} {s : State} {p : Stepped} (h : LaneLocal i s p.1) :
    LaneLocal i s (resolveStep i p) := by
  unfold resolveStep; split
  · exact h
  · exact h.trans (finishLane_local _ i _)

theorem raiseEvent_local (s : State) (i : LaneId) (c : FaultCode) : LaneLocal i s (raiseEvent s i c) := by
  unfold raiseEvent
  refine (modLane_local s i (fun l => { l with pendingEvent := some { code := c, sample := l.lastSample } })).trans
    ⟨by simp, by simp, fun j hj => ?_⟩
  rcases offer_lane (s.modLane i (fun l => { l with pendingEvent := some { code := c, sample := l.lastSample } }))
    (.laneEvent i) j with h | ⟨h, -⟩
  · exact h
  · exact absurd (Candidate.laneEvent.inj h).symm hj

theorem faultLane_local (s : State) (i : LaneId) (c : FaultCode) (b : Bool) : LaneLocal i s (faultLane s i c b) := by
  have hs : LaneLocal i s (if c.isSupply = true then
      switchOff ((releasePin s i).modLane i fun k => k.enterFaulted c) i
      else (releasePin s i).modLane i fun k => k.enterFaulted c) := by
    split
    · exact (releasePin_local s i).trans ((modLane_local _ i _).trans (switchOff_local _ i))
    · exact (releasePin_local s i).trans (modLane_local _ i _)
  unfold faultLane; dsimp only
  split
  · split
    · exact switchOff_local s i
    · exact .rfl' _ _
  · split
    · exact hs.trans ((closeJob_local _ i _ _).trans (nextJob_local _ i))
    · exact hs.trans (raiseEvent_local _ i c)

theorem laneFault_local (s : State) (i : LaneId) (c : FaultCode) : LaneLocal i s (laneFault s i c) :=
  faultLane_local s i c false

theorem identifyRefused_local (s : State) (i : LaneId) : LaneLocal i s (identifyRefused s i) :=
  faultLane_local s i .protocol true

/-! ### The Loader Link -/

theorem consumeBlock_local (s : State) (i : LaneId) (n : SlotId) (g b : Nat) : LaneLocal i s (consumeBlock s i n g b) := by
  unfold consumeBlock; split
  · exact .rfl' _ _
  · exact setPool_local _ _ _

theorem writeAcked_local (s : State) (i : LaneId) (n : SlotId) (g : Segment) (c : List Byte) :
    LaneLocal i s (writeAcked s i n g c) := by
  unfold writeAcked; dsimp only; split
  · exact modLane_local _ i _
  · exact (modLane_local _ i _).trans (consumeBlock_local _ i _ _ _)

theorem answerEffect_local (s : State) (i : LaneId) (n : SlotId) (j : Job) (q : Request) (p : List Byte) :
    LaneLocal i s (answerEffect s i n j q p) := by
  unfold answerEffect; dsimp only; repeat' split
  all_goals first
    | exact .rfl' _ _
    | exact modLane_local _ i _
    | exact writeAcked_local _ i _ _ _

theorem nextSegment_local (s : State) (i : LaneId) (j : Job) (k : Nat) : LaneLocal i s (nextSegment s i j k).1 := by
  unfold nextSegment; dsimp only; split
  · exact (modLane_local _ i _).trans (enterStep_local _ i _)
  · exact modLane_local _ i _

theorem segmentWritten_local (s : State) (i : LaneId) (j : Job) (k : Nat) (g : Segment) :
    LaneLocal i s (segmentWritten s i j k g).1 := by
  unfold segmentWritten; repeat' split
  all_goals first
    | exact .rfl' _ _
    | exact enterStep_local _ i _
    | exact nextSegment_local _ i _ _

theorem afterAnswer_local (s : State) (i : LaneId) (n : SlotId) (j : Job) (b : Lane) (q : Request) (p : List Byte) :
    LaneLocal i s (afterAnswer s i n j b q p).1 := by
  unfold afterAnswer; dsimp only
  have hf : ∀ c : Prop, ∀ [Decidable c], LaneLocal i s (if c then s else fillWindow s i n j) := by
    intro c _; split
    · exact .rfl' _ _
    · exact fillWindow_local _ i _ _
  repeat' split
  all_goals first
    | exact .rfl' _ _
    | exact rateDecision_local _ i _
    | exact unlockDecision_local _ i _
    | exact enterStep_local _ i _
    | exact nextSegment_local _ i _ _
    | exact modLane_local _ i _
    | exact segmentWritten_local _ i _ _ _

theorem goodAnswer_local (s : State) (i : LaneId) (n : SlotId) (j : Job) (q : Request) (p : List Byte) :
    LaneLocal i s (goodAnswer s i n j q p).1 := by
  have h : LaneLocal i s (answerEffect ((releasePin s i).modLane i Lane.endRequest) i n j q p) :=
    (releasePin_local s i).trans ((modLane_local _ i _).trans (answerEffect_local _ i _ _ _ _))
  unfold goodAnswer; dsimp only; repeat' split
  · exact h
  · exact h
  · exact h.trans (afterAnswer_local _ i _ _ _ _ _)

theorem refuse_local (s : State) (i : LaneId) (j : Job) (q : Request) (r : NakReason) :
    LaneLocal i s (refuse s i j q r).1 := by
  unfold refuse; dsimp only; split
  · exact (releasePin_local s i).trans ((modLane_local _ i _).trans (modLane_local _ i _))
  · exact (releasePin_local s i).trans (modLane_local _ i _)

theorem takeWait_local (s : State) (i : LaneId) (q : Request) (e : Nat) : LaneLocal i s (takeWait s i q e) := by
  unfold takeWait; dsimp only; split
  · exact laneFault_local s i _
  · exact modLane_local _ i _

theorem takeFrame_local (s : State) (i : LaneId) (q k : Byte) (p : List Byte) : LaneLocal i s (takeFrame s i q k p) := by
  unfold takeFrame; repeat' split
  all_goals first
    | exact .rfl' _ _
    | exact faultLane_local _ i _ _
    | exact takeWait_local _ i _ _
    | exact retransmitAtOnce_local _ i
    | exact resolveStep_local (refuse_local _ i _ _ _)
    | exact resolveStep_local (goodAnswer_local _ i _ _ _ _)

theorem spoilFrame_local (s : State) (i : LaneId) : LaneLocal i s (spoilFrame s i) :=
  (modLane_local _ i _).trans (retransmitAtOnce_local _ i)

theorem endedWriteOut_local (s : State) (i : LaneId) : LaneLocal i s (endedWriteOut s i) := by
  unfold endedWriteOut; dsimp only; split
  · exact resolveStep_local ((modLane_local s i _).trans (proceed_local _ i))
  · exact modLane_local s i _

theorem openSession_local (s : State) (i : LaneId) : LaneLocal i s (openSession s i) :=
  resolveStep_local ((modLane_local _ i _).trans (enterStep_local _ i _))

theorem takeCheck_local (s : State) (i : LaneId) (mv : Nat) : LaneLocal i s (takeCheck s i mv) := by
  unfold takeCheck; dsimp only; repeat' split
  all_goals first
    | exact .rfl' _ _
    | exact modLane_local _ i _
    | exact (modLane_local _ i _).trans (laneFault_local _ i _)
    | exact (modLane_local _ i _).trans (modLane_local _ i _)

theorem takeSupervise_local (s : State) (i : LaneId) (mv : Nat) : LaneLocal i s (takeSupervise s i mv) := by
  unfold takeSupervise; repeat' split
  all_goals first
    | exact modLane_local _ i _
    | exact (modLane_local _ i _).trans (laneFault_local _ i _)

end Sys2Proof.Machine
end

