-- ==== Sys2Proof/Laws/Holding.lean ====
section
/-! SUPPORT. What the freeing of a slot, the entry of a candidate into the holding queue, and the wait list's front do, each
said once in the words of Safety.lean (R54, R74, R130, R131, R138). -/

namespace Sys2Proof.Machine

/-- Slot `m` once slot `n` holds `j`. -/
theorem State.slot_setSlot (s : State) (n m : SlotId) (j : Option Job) :
    (s.setSlot n j).slot m = if n = m then j else s.slot m := by
  simp only [State.slot, State.setSlot, Vector.getElem_set]
  by_cases h : n = m
  · simp [h]
  · have : n.val ≠ m.val := fun e => h (Fin.ext e)
    simp [h, this]

/-- Ring `q` once ring `r` is changed. -/
theorem State.ring_modRing (s : State) (r q : RingId) (f : Ring → Ring) :
    (s.modRing r f).ring q = if r = q then f (s.ring q) else s.ring q := by
  simp only [State.ring, State.modRing, Vector.getElem_set]
  by_cases h : r = q
  · subst h; simp
  · have : r.val ≠ q.val := fun e => h (Fin.ext e)
    simp [h, this]

/-- The barrier waits, for slot `n` among others (R74). -/
def Job.waitsFor (b : Job) (n : SlotId) : Prop := b.state = .waiting ∧ n ∈ b.waitSet

/-- The barrier waits for slot `n` alone. -/
def Job.waitsOnlyFor (b : Job) (n : SlotId) : Prop := b.waitsFor n ∧ ∀ x ∈ b.waitSet, x = n

/-- The barrier once its wait set has emptied (R74). -/
def Job.retiredBarrier (b : Job) : Job :=
  { b with state := .retiring, waitSet := [], final := some { status := .success, okMask := 0, failMask := 0 } }

/-- From `u` to `t` slot `n` has left the wait sets of the barriers in the slots of `l`,
    each of which retires and is offered
when its wait set empties (R74, R138). -/
structure WaitSetsLeft (n : SlotId) (u t : State) (l : List SlotId) : Prop where
  out : ∀ m, m ∉ l → t.slot m = u.slot m
  nb : ∀ m b, m ∈ l → u.slot m = some b → ¬ b.waitsFor n → t.slot m = some b
  no : ∀ m, m ∈ l → u.slot m = none → t.slot m = none
  fl : ∀ m b, m ∈ l → u.slot m = some b → b.waitsFor n → ¬ b.waitsOnlyFor n →
      t.slot m = some { b with waitSet := b.waitSet.filter (· != n) }
  rt : ∀ m b, m ∈ l → u.slot m = some b → b.waitsOnlyFor n → t.slot m = some b.retiredBarrier ∧
      (t.ring b.ring).barrierPending = false ∧ (.job m ∈ t.writer.holding ∨ .job m ∈ t.writer.waitList)
  ring : ∀ r, t.ring r = { u.ring r with barrierPending := (t.ring r).barrierPending }
  bp : ∀ r, (∀ m b, m ∈ l → u.slot m = some b → b.ring = r → ¬ b.waitsOnlyFor n) →
      (t.ring r).barrierPending = (u.ring r).barrierPending
  bpm : ∀ r, (u.ring r).barrierPending = false → (t.ring r).barrierPending = false
  eng : t.intake.engine = u.intake.engine ∧ t.intake.arbiter = u.intake.arbiter
  wr : t.writer.ring = u.writer.ring ∧ t.writer.txn = u.writer.txn ∧ t.writer.count = u.writer.count ∧
      t.writer.delayTimer = u.writer.delayTimer
  fr : t.ctl = u.ctl ∧ t.lanes = u.lanes ∧ t.pool = u.pool ∧ t.creds = u.creds ∧ t.supply = u.supply ∧
      t.pending = u.pending
  off : ∃ entered joined : List SlotId,
    t.writer.holding = u.writer.holding ++ entered.map HeldRecord.job ∧
        t.writer.waitList = u.writer.waitList ++ joined.map Candidate.job ∧
    (∀ m : SlotId, m ∈ entered ∨ m ∈ joined → m ∈ l ∧ ∃ b, u.slot m = some b ∧ b.waitsOnlyFor n) ∧
    (entered ≠ [] → u.ctl.device ≠ .fault ∧ u.writer.waitList = []) ∧
    (joined ≠ [] → u.ctl.device = .fault ∨ u.writer.waitList ≠ [] ∨ 8 ≤ t.writer.holding.length)

theorem waitSetsLeft_nil (n : SlotId) (u : State) : WaitSetsLeft n u u [] := by
  constructor <;> simp

/-- A candidate enters at once exactly where `holdingOpen` says so (R138). -/
theorem canEnter_iff (s : State) : s.canEnter = true ↔ s.holdingOpen := by
  unfold State.canEnter State.holdingOpen
  rw [Bool.and_eq_true, Bool.and_eq_true, decide_eq_true_iff]
  simp [and_assoc, Config.holdingRoom]

/-- A RETIRING job enters at once, waits already, or joins the wait list (R138). -/
theorem offerJob_cases (s : State) (n : SlotId) :
    (offerJob s n = s.pushHolding (.job n) ∧ s.ctl.device ≠ .fault ∧ s.writer.waitList = [] ∧
        s.writer.holding.length < 8) ∨
    (.job n ∈ s.writer.waitList ∧ offerJob s n = s) ∨
    (offerJob s n = { s with writer := { s.writer with waitList := s.writer.waitList ++ [.job n] } } ∧
      (s.ctl.device = .fault ∨ s.writer.waitList ≠ [] ∨ 8 ≤ s.writer.holding.length)) := by
  unfold offerJob State.canEnter State.joinWait
  split
  · left; rename_i h; simp [Config.holdingRoom] at h; exact ⟨rfl, h.1.1, h.1.2, of_decide_eq_true h.2⟩
  · rename_i h
    split
    · right; left; rename_i h2; exact ⟨by simpa using h2, rfl⟩
    · right; right; refine ⟨rfl, ?_⟩
      simp [Config.holdingRoom] at h
      by_cases a : s.ctl.device = .fault
      · exact .inl a
      · by_cases b : s.writer.waitList = []
        · right; right; exact Nat.le_of_not_lt (of_decide_eq_false (h a b))
        · exact .inr (.inl b)

theorem waitSetsLeft_step (n : SlotId) (u t : State) (l : List SlotId) (m : SlotId) (hm : m ∉ l)
    (H : WaitSetsLeft n u t l) :
    WaitSetsLeft n u (leaveWaitSet n t m) (l ++ [m]) := by
  have hs : t.slot m = u.slot m := H.out m hm
  cases hb : u.slot m with
  | none =>
    have e : leaveWaitSet n t m = t := by unfold leaveWaitSet; rw [hs, hb]
    rw [e]
    constructor
    · intro x hx; exact H.out x (fun h => hx (by simp [h]))
    · intro x b hx hxb; simp at hx; rcases hx with hx | rfl
      · exact H.nb x b hx hxb
      · simp [hb] at hxb
    · intro x hx hxb; simp at hx; rcases hx with hx | rfl
      · exact H.no x hx hxb
      · rw [hs, hb]
    · intro x b hx hxb; simp at hx; rcases hx with hx | rfl
      · exact H.fl x b hx hxb
      · simp [hb] at hxb
    · intro x b hx hxb; simp at hx; rcases hx with hx | rfl
      · exact H.rt x b hx hxb
      · simp [hb] at hxb
    · exact H.ring
    · intro r h; exact H.bp r (fun x b hx => h x b (by simp [hx]))
    · exact H.bpm
    · exact H.eng
    · exact H.wr
    · exact H.fr
    · obtain ⟨e1, j1, h1, h2, h3, h4⟩ := H.off
      exact ⟨e1, j1, h1, h2, fun x hx => ⟨by simp [(h3 x hx).1], (h3 x hx).2⟩, h4⟩
  | some b =>
    by_cases g : b.waitsFor n
    · by_cases la : b.waitsOnlyFor n
      · -- retires
        have e : leaveWaitSet n t m = offerJob ((t.setSlot m (some b.retiredBarrier)).modRing b.ring
            (fun r => { r with barrierPending := false })) m := by
          unfold leaveWaitSet
          rw [hs, hb]
          have : (b.waitSet.filter (· != n)) = [] := by
            simp only [List.filter_eq_nil_iff]; intro x hx; simp [la.2 x hx]
          simp [g.1, g.2, this, retireBarrier, hs, hb, Job.retiredBarrier]
        rw [e]
        set v := (t.setSlot m (some b.retiredBarrier)).modRing b.ring (fun r => { r with barrierPending :=
            false }) with hv
        have vs : ∀ x, v.slot x = if m = x then some b.retiredBarrier else t.slot x := by
          intro x; rw [hv]; exact State.slot_setSlot t m x _
        have vr : ∀ q, v.ring q = if b.ring = q then { t.ring q with barrierPending := false } else t.ring q := by
          intro q; rw [hv, State.ring_modRing]; rfl
        have vw : v.writer = t.writer := rfl
        have vc : v.ctl = t.ctl := rfl
        obtain ⟨e1, j1, h1, h2, h3, h4, h5⟩ := H.off
        have key : ∀ w : State, w.slots = v.slots → w.intake = v.intake → w.ctl = v.ctl → w.lanes = v.lanes →
            w.pool = v.pool → w.creds = v.creds → w.supply = v.supply → w.pending = v.pending →
            (w.writer.ring = v.writer.ring ∧ w.writer.txn = v.writer.txn ∧ w.writer.count = v.writer.count ∧
                w.writer.delayTimer = v.writer.delayTimer) →
            (∀ x, HeldRecord.job x ∈ v.writer.holding → HeldRecord.job x ∈ w.writer.holding) →
                (∀ x, Candidate.job x ∈ v.writer.waitList → Candidate.job x ∈ w.writer.waitList) →
            (.job m ∈ w.writer.holding ∨ .job m ∈ w.writer.waitList) →
            (∃ entered joined : List SlotId,
    w.writer.holding = u.writer.holding ++ entered.map HeldRecord.job ∧
        w.writer.waitList = u.writer.waitList ++ joined.map Candidate.job ∧
    (∀ x : SlotId, x ∈ entered ∨ x ∈ joined → x ∈ l ++ [m] ∧ ∃ b, u.slot x = some b ∧ b.waitsOnlyFor n) ∧
    (entered ≠ [] → u.ctl.device ≠ .fault ∧ u.writer.waitList = []) ∧
    (joined ≠ [] → u.ctl.device = .fault ∨ u.writer.waitList ≠ [] ∨ 8 ≤ w.writer.holding.length)) →
        WaitSetsLeft n u w (l ++ [m]) := by
          intro w ws wi wc wl wp wcr wsu wpe wwr wh ww wm woff
          have wsl : ∀ x, w.slot x = if m = x then some b.retiredBarrier else t.slot x := by
            intro x; rw [← vs x]; simp [State.slot, ws]
          have wri : ∀ q, w.ring q = if b.ring = q then { t.ring q with barrierPending := false } else t.ring q := by
            intro q; rw [← vr q]; simp [State.ring, wi]
          have ne : ∀ x, x ∈ l → m ≠ x := fun x hx e => hm (e ▸ hx)
          constructor
          · intro x hx; simp at hx; rw [wsl, if_neg (fun e => hx.2 e.symm)]; exact H.out x hx.1
          · intro x b' hx hxb; simp at hx; rcases hx with hx | rfl
            · intro ng; rw [wsl, if_neg (ne x hx)]; exact H.nb x b' hx hxb ng
            · intro ng; rw [hb] at hxb; cases hxb; exact absurd g ng
          · intro x hx hxb; simp at hx; rcases hx with hx | rfl
            · rw [wsl, if_neg (ne x hx)]; exact H.no x hx hxb
            · simp [hb] at hxb
          · intro x b' hx hxb; simp at hx; rcases hx with hx | rfl
            · intro a1 a2; rw [wsl, if_neg (ne x hx)]; exact H.fl x b' hx hxb a1 a2
            · intro a1 a2; rw [hb] at hxb; cases hxb; exact absurd la a2
          · intro x b' hx hxb; simp at hx; rcases hx with hx | rfl
            · intro a1; rw [wsl, if_neg (ne x hx)]
              obtain ⟨c1, c2, c3⟩ := H.rt x b' hx hxb a1
              refine ⟨c1, ?_, ?_⟩
              · rw [wri]; split <;> simp [c2]
              · rcases c3 with c3 | c3
                · exact .inl (wh x c3)
                · exact .inr (ww x c3)
            · intro _; rw [hb] at hxb; cases hxb; refine ⟨by simp [wsl], by simp [wri], wm⟩
          · intro r; rw [wri]; split
            · rw [H.ring r]
            · exact H.ring r
          · intro r hr; rw [wri, if_neg]
            · exact H.bp r (fun x b' hx => hr x b' (by simp [hx]))
            · intro e; exact hr m b (by simp) hb e la
          · intro r hr; rw [wri]; split
            · rfl
            · exact H.bpm r hr
          · rw [wi]; exact H.eng
          · obtain ⟨w1, w2, w3, w4⟩ := wwr; rw [w1, w2, w3, w4]; exact H.wr
          · rw [wc, wl, wp, wcr, wsu, wpe]; exact H.fr
          · exact woff
        have dev : v.ctl.device = u.ctl.device := by rw [vc, H.fr.1]
        have inn : m ∈ l ++ [m] ∧ ∃ b, u.slot m = some b ∧ b.waitsOnlyFor n := ⟨by simp, b, hb, la⟩
        have old : ∀ x : SlotId, x ∈ e1 ∨ x ∈ j1 → x ∈ l ++ [m] ∧ ∃ b, u.slot x = some b ∧ b.waitsOnlyFor n :=
          fun x hx => ⟨by simp [(h3 x hx).1], (h3 x hx).2⟩
        rcases offerJob_cases v m with ⟨e2, d2, w2, r2⟩ | ⟨w2, e2⟩ | ⟨e2, w2⟩
        · rw [e2]; refine key _ rfl rfl rfl rfl rfl rfl rfl rfl ⟨rfl, rfl, rfl, rfl⟩ ?_ ?_ ?_ ?_
          · intro x hx; simp [State.pushHolding, hx]
          · intro x hx; exact hx
          · simp [State.pushHolding]
          · have uw : u.writer.waitList = [] ∧ j1 = [] := by
              rw [vw, h2] at w2; simpa using w2
            refine ⟨e1 ++ [m], j1, ?_, ?_, ?_, ?_, ?_⟩
            · simp [State.pushHolding, vw, h1]
            · simpa [State.pushHolding, vw] using h2
            · intro x hx; simp at hx; rcases hx with (hx | rfl) | hx
              · exact old x (.inl hx)
              · exact inn
              · exact old x (.inr hx)
            · intro _; exact ⟨by rw [← dev]; exact d2, uw.1⟩
            · intro hh; exact absurd uw.2 hh
        · rw [e2]; refine key _ rfl rfl rfl rfl rfl rfl rfl rfl ⟨rfl, rfl, rfl, rfl⟩ (fun x hx => hx)
            (fun x hx => hx) (.inr w2) ?_
          exact ⟨e1, j1, h1, h2, old, h4, h5⟩
        · rw [e2]; refine key _ rfl rfl rfl rfl rfl rfl rfl rfl ⟨rfl, rfl, rfl,
            rfl⟩ (fun x hx => hx) ?_ (.inr (by simp)) ?_
          · intro x hx; simp [hx]
          · refine ⟨e1, j1 ++ [m], h1, ?_, ?_, h4, ?_⟩
            · simp [vw, h2]
            · intro x hx; simp at hx; rcases hx with hx | hx | rfl
              · exact old x (.inl hx)
              · exact old x (.inr hx)
              · exact inn
            · intro _
              by_cases jn : j1 = []
              · rcases w2 with w2 | w2 | w2
                · left; rw [← dev]; exact w2
                · right; left; intro c; apply w2; rw [vw, h2, c, jn]; rfl
                · right; right; exact w2
              · exact h5 jn
      · -- filtered
        have e : leaveWaitSet n t m = t.setSlot m (some { b with waitSet := b.waitSet.filter (· != n) }) := by
          unfold leaveWaitSet
          rw [hs, hb]
          have : (b.waitSet.filter (· != n)) ≠ [] := by
            intro h; apply la; refine ⟨g, fun x hx => ?_⟩
            rw [List.filter_eq_nil_iff] at h; simpa using h x hx
          simp only [g.1, decide_true, Bool.true_and, List.contains_iff_mem, g.2, if_true, List.isEmpty_iff, this,
              if_false]
        rw [e]
        have ne : ∀ x, x ∈ l → m ≠ x := fun x hx e => hm (e ▸ hx)
        have wsl := State.slot_setSlot t m (j := some { b with waitSet := b.waitSet.filter (· != n) })
        constructor
        · intro x hx; simp at hx; rw [wsl, if_neg (fun e => hx.2 e.symm)]; exact H.out x hx.1
        · intro x b' hx hxb; simp at hx; rcases hx with hx | rfl
          · intro ng; rw [wsl, if_neg (ne x hx)]; exact H.nb x b' hx hxb ng
          · intro ng; rw [hb] at hxb; cases hxb; exact absurd g ng
        · intro x hx hxb; simp at hx; rcases hx with hx | rfl
          · rw [wsl, if_neg (ne x hx)]; exact H.no x hx hxb
          · simp [hb] at hxb
        · intro x b' hx hxb; simp at hx; rcases hx with hx | rfl
          · intro a1 a2; rw [wsl, if_neg (ne x hx)]; exact H.fl x b' hx hxb a1 a2
          · intro a1 a2; rw [hb] at hxb; cases hxb; simp [wsl]
        · intro x b' hx hxb; simp at hx; rcases hx with hx | rfl
          · intro a1; rw [wsl, if_neg (ne x hx)]; exact H.rt x b' hx hxb a1
          · intro a1; rw [hb] at hxb; cases hxb; exact absurd a1 la
        · exact H.ring
        · intro r h; exact H.bp r (fun x b hx => h x b (by simp [hx]))
        · exact H.bpm
        · exact H.eng
        · exact H.wr
        · exact H.fr
        · obtain ⟨e1, j1, h1, h2, h3, h4⟩ := H.off
          exact ⟨e1, j1, h1, h2, fun x hx => ⟨by simp [(h3 x hx).1], (h3 x hx).2⟩, h4⟩
    · have e : leaveWaitSet n t m = t := by
        unfold leaveWaitSet; rw [hs, hb]
        have : ¬ (b.state = .waiting ∧ n ∈ b.waitSet) := g
        simp only [Bool.and_eq_true, decide_eq_true_eq, List.contains_iff_mem]
        rw [if_neg this]
      rw [e]
      constructor
      · intro x hx; exact H.out x (fun h => hx (by simp [h]))
      · intro x b' hx hxb; simp at hx; rcases hx with hx | rfl
        · exact H.nb x b' hx hxb
        · intro _; rw [hb] at hxb; cases hxb; rw [hs, hb]
      · intro x hx hxb; simp at hx; rcases hx with hx | rfl
        · exact H.no x hx hxb
        · simp [hb] at hxb
      · intro x b' hx hxb; simp at hx; rcases hx with hx | rfl
        · exact H.fl x b' hx hxb
        · intro a1; rw [hb] at hxb; cases hxb; exact absurd a1 g
      · intro x b' hx hxb; simp at hx; rcases hx with hx | rfl
        · exact H.rt x b' hx hxb
        · intro a1; rw [hb] at hxb; cases hxb; exact absurd a1.1 g
      · exact H.ring
      · intro r h; exact H.bp r (fun x b hx => h x b (by simp [hx]))
      · exact H.bpm
      · exact H.eng
      · exact H.wr
      · exact H.fr
      · obtain ⟨e1, j1, h1, h2, h3, h4⟩ := H.off
        exact ⟨e1, j1, h1, h2, fun x hx => ⟨by simp [(h3 x hx).1], (h3 x hx).2⟩, h4⟩

theorem waitSetsLeft_fold (n : SlotId) (u : State) : ∀ (r l : List SlotId) (t : State), (l ++ r).Nodup →
    WaitSetsLeft n u t l →
    WaitSetsLeft n u (r.foldl (leaveWaitSet n) t) (l ++ r) := by
  intro r
  induction r with
  | nil => intro l t _ H; simpa using H
  | cons m r ih =>
    intro l t hn H
    have hm : m ∉ l := by
      intro h; rw [List.nodup_append] at hn; exact hn.2.2 m h m (by simp) rfl
    have := ih (l ++ [m]) _ (by simpa using hn) (waitSetsLeft_step n u t l m hm H)
    simpa using this

theorem waitSetsLeft_all (n : SlotId) (u : State) : WaitSetsLeft n u (allSlots.foldl (leaveWaitSet n) u) allSlots := by
  have := waitSetsLeft_fold n u allSlots [] u (by simpa [allSlots] using List.nodup_finRange 32) (waitSetsLeft_nil n u)
  simpa using this

theorem mem_allSlots (n : SlotId) : n ∈ allSlots := by simp [allSlots]

/-- `freeSlot` is `n` leaving every wait set, and rings on SLOT held no longer. -/
theorem freeSlot_waitSetsLeft (s : State) (n : SlotId) :
    ∃ v, WaitSetsLeft n (s.setSlot n none) v allSlots ∧ freeSlot s n = v.unblockSlot := ⟨_, waitSetsLeft_all n _, rfl⟩

theorem unblockSlot_ring (s : State) (r : RingId) : (s.unblockSlot).ring r = (s.ring r).slotFreed := by
  simp [State.unblockSlot, State.ring]

theorem slotFreed_fields (r : Ring) : r.slotFreed.barrierPending = r.barrierPending ∧
    r.slotFreed = { r with blocked := r.slotFreed.blocked } := by
  unfold Ring.slotFreed; split <;> simp

/-- All that freeing a slot does to the slots, barrier pending and the Completion Writer's lists (R54, R74). -/
theorem freeSlot_frees (s : State) (n : SlotId) :
    s.frees (freeSlot s n) (fun m => m == n) s.writer.holding s.writer.waitList := by
  obtain ⟨v, H, e⟩ := freeSlot_waitSetsLeft s n
  rw [e]
  have vs : ∀ m, (v.unblockSlot).slot m = v.slot m := fun m => rfl
  have us : ∀ m, m ≠ n → (s.setSlot n none).slot m = s.slot m := by
    intro m h; rw [State.slot_setSlot, if_neg (fun e => h e.symm)]
  have un : (s.setSlot n none).slot n = none := by simp
  have gl : ∀ m b, s.slot m = some b → m ≠ n → (s.lastFreed (fun m => m == n) m ↔ b.waitsOnlyFor n) := by
    intro m b hb hm
    constructor
    · rintro ⟨b', hb', h1, h2, h3⟩
      rw [hb] at hb'; cases hb'
      have h4 : ∀ x ∈ b.waitSet, x = n := fun x hx => by simpa using h3 x hx
      refine ⟨⟨h1, ?_⟩, h4⟩
      cases hw : b.waitSet with
      | nil => exact absurd hw h2
      | cons x xs => have := h4 x (by simp [hw]); simp [this]
    · rintro ⟨⟨h1, h2⟩, h3⟩
      exact ⟨b, hb, h1, fun e => by simp [e] at h2, fun x hx => by simp [h3 x hx]⟩
  constructor
  · intro m hm; have : m = n := by simpa using hm
    subst this; rw [vs]; exact H.no m (mem_allSlots m) un
  · intro m hm hb; have : m ≠ n := by simpa using hm
    rw [vs, ← us m this]
    cases hc : (s.setSlot n none).slot m with
    | none => exact H.no m (mem_allSlots m) hc
    | some b =>
      refine H.nb m b (mem_allSlots m) hc ?_
      rintro ⟨g, -⟩; rw [us m this] at hc; exact hb b hc g
  · intro m b hm hb hw hl; have hmn : m ≠ n := by simpa using hm
    rw [vs]
    have hb' : (s.setSlot n none).slot m = some b := by rw [us m hmn]; exact hb
    by_cases g : b.waitsFor n
    · rw [H.fl m b (mem_allSlots m) hb' g (fun c => hl ((gl m b hb hmn).2 c))]; rfl
    · rw [H.nb m b (mem_allSlots m) hb' g]
      have : b.waitSet.filter (fun x => !(x == n)) = b.waitSet := by
        rw [List.filter_eq_self]; intro x hx
        have : x ≠ n := fun e => g ⟨hw, e ▸ hx⟩
        simp [this]
      rw [this]
  · intro m b hm hb hl; have hmn : m ≠ n := by simpa using hm
    have hb' : (s.setSlot n none).slot m = some b := by rw [us m hmn]; exact hb
    obtain ⟨h1, h2, h3⟩ := H.rt m b (mem_allSlots m) hb' ((gl m b hb hmn).1 hl)
    refine ⟨h1, ?_, h3⟩
    rw [unblockSlot_ring, (slotFreed_fields _).1]; exact h2
  · intro r hr; rw [unblockSlot_ring, (slotFreed_fields _).1]
    refine H.bp r (fun m b _ hb hbr hlast => ?_)
    have hmn : m ≠ n := fun e => by subst e; simp [un] at hb
    rw [us m hmn] at hb
    exact hr m b hb hbr ((gl m b hb hmn).2 hlast)
  · obtain ⟨e1, j1, h1, h2, h3, h4, h5⟩ := H.off
    refine ⟨e1, j1, h1, h2, ?_, h4, h5⟩
    intro m hm
    obtain ⟨-, b, hb, hl⟩ := h3 m hm
    have hmn : m ≠ n := fun e => by subst e; simp [un] at hb
    rw [us m hmn] at hb
    exact (gl m b hb hmn).2 hl

/-- Slots freed one after the other are freed together. -/
theorem frees_trans {s u t : State} {f g : SlotId → Bool} {held : List HeldRecord} {waits : List Candidate}
    (hd : u.ctl.device = s.ctl.device)
    (A : s.frees u f held waits) (B : u.frees t g u.writer.holding u.writer.waitList)
    (mono : ∀ r, (u.ring r).barrierPending = false → (t.ring r).barrierPending = false)
    (monoh : ∀ x ∈ u.writer.holding, x ∈ t.writer.holding) (monow : ∀ x ∈ u.writer.waitList, x ∈ t.writer.waitList)
    (hlen : u.writer.holding.length ≤ t.writer.holding.length) :
    s.frees t (fun m => f m || g m) held waits := by
  have L : ∀ m, u.lastFreed g m → f m = false → s.lastFreed (fun m => f m || g m) m ∧ ¬ s.lastFreed f m := by
    rintro m ⟨b, hb, hw, hne, hall⟩ hf
    cases hc : s.slot m with
    | none => have := A.others m hf (by simp [hc]); rw [hb, hc] at this; cases this
    | some c =>
      by_cases hcw : c.state = .waiting
      · by_cases hl : s.lastFreed f m
        · have := (A.retired m c hf hc hl).1; rw [hb] at this; cases this; cases hw
        · have e := A.waiting m c hf hc hcw hl
          rw [hb] at e; cases e
          refine ⟨⟨c, hc, hcw, ?_, ?_⟩, hl⟩
          · intro e; simp [e] at hne
          · intro x hx
            cases hfx : f x with
            | true => simp [hfx]
            | false => have := hall x (by simp [hx, hfx]); simp [this]
      · have := A.others m hf (by intro b' hb'; rw [hc] at hb'; cases hb'; exact hcw)
        rw [hb, hc] at this; cases this; exact absurd hw hcw
  have fF : ∀ m, u.lastFreed g m → f m = false := by
    rintro m ⟨b, hb, -⟩
    cases hf : f m with
    | false => rfl
    | true => rw [A.free m hf] at hb; cases hb
  have R : ∀ m, s.lastFreed f m → s.lastFreed (fun m => f m || g m) m := by
    rintro m ⟨b, h1, h2, h3, h4⟩; exact ⟨b, h1, h2, h3, fun x hx => by simp [h4 x hx]⟩
  have dich : ∀ m b, s.slot m = some b → f m = false → s.lastFreed (fun m => f m || g m) m → ¬ s.lastFreed f m →
      u.lastFreed g m := by
    rintro m b hb hf ⟨b', hb', hw, hne, hall⟩ hl
    rw [hb] at hb'; cases hb'
    refine ⟨_, A.waiting m b hf hb hw hl, hw, ?_, ?_⟩
    · intro e
      apply hl
      refine ⟨b, hb, hw, hne, fun x hx => ?_⟩
      rw [List.filter_eq_nil_iff] at e; simpa using e x hx
    · intro x hx
      simp only [List.mem_filter] at hx
      have := hall x hx.1
      simp at hx; simpa [hx.2] using this
  constructor
  · intro m hm
    cases hg : g m with
    | true => exact B.free m hg
    | false =>
      have hf : f m = true := by simpa [hg] using hm
      rw [B.others m hg]; · exact A.free m hf
      · intro b hb; rw [A.free m hf] at hb; cases hb
  · intro m hm hb
    simp only [Bool.or_eq_false_iff] at hm
    have e := A.others m hm.1 hb
    rw [B.others m hm.2 (by rw [e]; exact hb), e]
  · intro m b hm hb hw hl
    simp only [Bool.or_eq_false_iff] at hm
    have hlf : ¬ s.lastFreed f m := fun h => hl (R m h)
    have e := A.waiting m b hm.1 hb hw hlf
    have := B.waiting m _ hm.2 e hw (fun h => hl (L m h hm.1).1)
    rw [this]; simp [List.filter_filter, Bool.and_comm]
  · intro m b hm hb hl
    simp only [Bool.or_eq_false_iff] at hm
    by_cases hlf : s.lastFreed f m
    · obtain ⟨h1, h2, h3⟩ := A.retired m b hm.1 hb hlf
      refine ⟨?_, mono _ h2, ?_⟩
      · rw [B.others m hm.2 (by rw [h1]; intro c hc; cases hc; simp), h1]
      · rcases h3 with h3 | h3
        · exact .inl (monoh _ h3)
        · exact .inr (monow _ h3)
    · have hu := dich m b hb hm.1 hl hlf
      obtain ⟨b', hb', hw, hne, hall⟩ := hl
      rw [hb] at hb'; cases hb'
      have e := A.waiting m b hm.1 hb hw hlf
      obtain ⟨h1, h2, h3⟩ := B.retired m _ hm.2 e hu
      exact ⟨h1, h2, h3⟩
  · intro r hr
    rw [B.barrier r, A.barrier r]
    · intro m b hb hbr hl; exact hr m b hb hbr (R m hl)
    · intro m b hb hbr hl
      have hf := fF m hl
      obtain ⟨h1, h2⟩ := L m hl hf
      obtain ⟨c, hc, -⟩ := id h1
      refine hr m c hc ?_ h1
      obtain ⟨b', hb', hbw, -⟩ := hl
      rw [hb] at hb'; cases hb'
      by_cases hcw : c.state = .waiting
      · have := A.waiting m c hf hc hcw h2; rw [hb] at this; cases this; exact hbr
      · have := A.others m hf (by intro b' hb'; rw [hc] at hb'; cases hb'; exact hcw)
        rw [hb, hc] at this; cases this; exact hbr
  · obtain ⟨e1, j1, a1, a2, a3, a4, a5⟩ := A.offered
    obtain ⟨e2, j2, b1, b2, b3, b4, b5⟩ := B.offered
    refine ⟨e1 ++ e2, j1 ++ j2, by simp [b1, a1], by simp [b2, a2], ?_, ?_, ?_⟩
    · intro m hm
      have : (m ∈ e1 ∨ m ∈ j1) ∨ (m ∈ e2 ∨ m ∈ j2) := by simp at hm; tauto
      rcases this with h | h
      · exact R m (a3 m h)
      · have := b3 m h; exact (L m this (fF m this)).1
    · intro h
      by_cases h1 : e1 = []
      · have h2 : e2 ≠ [] := fun c => h (by simp [h1, c])
        obtain ⟨c1, c2⟩ := b4 h2
        rw [a2] at c2; exact ⟨hd ▸ c1, by simp at c2; exact c2.1⟩
      · exact a4 h1
    · intro h
      by_cases h1 : j1 = []
      · have h2 : j2 ≠ [] := fun c => h (by simp [h1, c])
        rcases b5 h2 with c | c | c
        · exact .inl (hd ▸ c)
        · right; left; rw [a2, h1] at c; simpa using c
        · exact .inr (.inr c)
      · rcases a5 h1 with c | c | c
        · exact .inl c
        · exact .inr (.inl c)
        · right; right; omega

theorem frees_congr {s s' t t' : State} {f : SlotId → Bool} {held : List HeldRecord} {waits : List Candidate}
    (h1 : s'.slots = s.slots) (h2 : s'.intake.rings = s.intake.rings) (h3 : s'.ctl.device = s.ctl.device)
    (g1 : t'.slots = t.slots) (g2 : t'.intake.rings = t.intake.rings) (g3 : t'.writer.holding =
        t.writer.holding) (g4 : t'.writer.waitList = t.writer.waitList)
    (H : s'.frees t' f held waits) : s.frees t f held waits := by
  have a1 : ∀ m, s'.slot m = s.slot m := fun m => by simp [State.slot, h1]
  have a2 : ∀ m, t'.slot m = t.slot m := fun m => by simp [State.slot, g1]
  have a3 : ∀ m, s'.ring m = s.ring m := fun m => by simp [State.ring, h2]
  have a4 : ∀ m, t'.ring m = t.ring m := fun m => by simp [State.ring, g2]
  have a5 : ∀ m, s'.lastFreed f m ↔ s.lastFreed f m := fun m => by simp [State.lastFreed, a1]
  obtain ⟨c1, c2, c3, c4, c5, c6⟩ := H
  simp only [a1, a2, a3, a4, a5, g3, g4, h3] at c1 c2 c3 c4 c5 c6
  exact ⟨c1, c2, c3, c4, c5, c6⟩

theorem recordFor_congr {s s' : State} (h1 : s'.slots = s.slots) (h2 : s'.intake = s.intake) (h3 : s'.lanes = s.lanes) :
    s'.recordFor = s.recordFor := by
  funext c; cases c <;> simp [State.recordFor, State.slot, State.lane, h1, h2, h3]

theorem enters_congr {s s' t t' : State} {f : Option Candidate} {l : List SlotId}
    (h1 : s'.slots = s.slots) (h2 : s'.intake = s.intake) (h3 : s'.lanes = s.lanes)
    (g2 : t'.intake = t.intake) (g3 : t'.lanes = t.lanes)
    (H : s'.entersFrom t' f l) : s.entersFrom t f l := by
  have a1 : ∀ m, s'.slot m = s.slot m := fun m => by simp [State.slot, h1]
  have a3 : ∀ m, s'.ring m = s.ring m := fun m => by simp [State.ring, h2]
  have a4 : ∀ m, t'.ring m = t.ring m := fun m => by simp [State.ring, g2]
  have a5 : ∀ m, s'.lane m = s.lane m := fun m => by simp [State.lane, h3]
  have a6 : ∀ m, t'.lane m = t.lane m := fun m => by simp [State.lane, g3]
  have a7 := recordFor_congr h1 h2 h3
  obtain ⟨c1, c2, c3, c4, c5, c6, c7, c8, c9, c10⟩ := H
  simp only [a1, a3, a4, a5, a6, a7, h2, g2] at c1 c2 c3 c4 c5 c6 c7 c8 c9 c10
  exact ⟨c1, c2, c3, c4, c5, c6, c7, c8, c9, c10⟩

theorem frees_none {s t : State} (h1 : t.slots = s.slots) (h2 : ∀ r, (t.ring r).barrierPending =
    (s.ring r).barrierPending) :
    s.frees t (fun _ => false) t.writer.holding t.writer.waitList := by
  have a1 : ∀ m, t.slot m = s.slot m := fun m => by simp [State.slot, h1]
  have nl : ∀ m, ¬ s.lastFreed (fun _ => false) m := by
    rintro m ⟨b, -, -, h, h'⟩
    cases hw : b.waitSet with
    | nil => exact h hw
    | cons x xs => have := h' x (by simp [hw]); cases this
  constructor
  · intro m h; cases h
  · intro m _ _; exact a1 m
  · intro m b _ hb _ _; rw [a1, hb]; congr 1; simp
  · intro m b _ _ h; exact absurd h (nl m)
  · intro r _; exact h2 r
  · exact ⟨[], [], by simp⟩

theorem unblockLane_ring (s : State) (i : LaneId) (r : RingId) : (s.unblockLane i).ring r = (s.ring r).laneFreed i := by
  simp [State.unblockLane, State.ring]

/-- All that room on the lanes of a set does: it ends LANE_QUEUE where the held entry names one of them (R130). -/
theorem unblockLanes_spec (m : BitVec 16) (s : State) :
    (∀ r, ((s.unblockLanes m).ring r) = { s.ring r with blocked := ((s.unblockLanes m).ring r).blocked } ∧
      ((s.ring r).blocked ≠ .laneQueue → ((s.unblockLanes m).ring r).blocked = (s.ring r).blocked) ∧
      ((s.ring r).blocked = .laneQueue →
        (((s.unblockLanes m).ring r).blocked = .none ∨ ((s.unblockLanes m).ring r).blocked = .laneQueue) ∧
        (((s.unblockLanes m).ring r).blocked = .none ↔ ∃ w i, (s.ring r).held = some w ∧ inSet m i = true ∧
            inSet w.lanes i = true))) ∧
    (s.unblockLanes m).slots = s.slots ∧ (s.unblockLanes m).intake.engine = s.intake.engine ∧
    (s.unblockLanes m).intake.arbiter = s.intake.arbiter ∧ (s.unblockLanes m).writer = s.writer ∧
        (s.unblockLanes m).lanes = s.lanes ∧
    (s.unblockLanes m).ctl = s.ctl ∧ (s.unblockLanes m).pool = s.pool ∧ (s.unblockLanes m).creds = s.creds ∧
        (s.unblockLanes m).supply = s.supply := by
  have ml : ∀ i, i ∈ lanesOf m ↔ inSet m i = true := by intro i; simp [lanesOf, allLanes]
  unfold State.unblockLanes
  simp only [← ml]
  generalize lanesOf m = l
  induction l generalizing s with
  | nil =>
    simp only [List.foldl_nil]
    refine ⟨fun r => ⟨by trivial, fun _ => by trivial, fun h => ⟨.inr h, ?_⟩⟩, by simp⟩
    simp [h]
  | cons i l ih =>
    simp only [List.foldl_cons]
    obtain ⟨h1, h2, h3, h4, h5, h6, h7, h8, h9, h10⟩ := ih (s.unblockLane i)
    refine ⟨fun r => ?_, by rw [h2]; rfl, by rw [h3]; rfl, by rw [h4]; rfl, by rw [h5]; rfl, by rw [h6]; rfl,
        by rw [h7]; rfl, by rw [h8]; rfl, by rw [h9]; rfl, by rw [h10]; rfl⟩
    obtain ⟨a, b, c⟩ := h1 r
    rw [unblockLane_ring] at a b c
    have L : (s.ring r).laneFreed i = { s.ring r with blocked := ((s.ring r).laneFreed i).blocked } := by
      unfold Ring.laneFreed; split
      · rfl
      · split <;> rfl
    have hh : ((s.ring r).laneFreed i).held = (s.ring r).held := by rw [L]
    refine ⟨?_, ?_, ?_⟩
    · rw [a, L]
    · intro hb
      have : ((s.ring r).laneFreed i).blocked = (s.ring r).blocked := by
        unfold Ring.laneFreed; split
        · rfl
        · rw [if_neg]; simp [hb]
      rw [b (by rw [this]; exact hb), this]
    · intro hb
      by_cases k : ∃ w, (s.ring r).held = some w ∧ inSet w.lanes i = true
      · obtain ⟨w, k1, k2⟩ := k
        have : ((s.ring r).laneFreed i).blocked = .none := by simp [Ring.laneFreed, k1, k2, hb]
        have e := b (by rw [this]; simp)
        rw [this] at e
        refine ⟨.inl e, iff_of_true e ⟨w, i, k1, by simp, k2⟩⟩
      · have : ((s.ring r).laneFreed i).blocked = .laneQueue := by
          unfold Ring.laneFreed; split
          · exact hb
          · rename_i w hw
            have : inSet w.lanes i = false := by
              cases hq : inSet w.lanes i with
              | true => exact absurd ⟨w, hw, hq⟩ k
              | false => rfl
            simp [this, hb]
        obtain ⟨c1, c2⟩ := c this
        refine ⟨c1, c2.trans ?_⟩
        rw [hh]
        constructor
        · rintro ⟨w, x, p, q, z⟩; exact ⟨w, x, p, by simp [q], z⟩
        · rintro ⟨w, x, p, q, z⟩
          simp only [List.mem_cons] at q
          rcases q with rfl | q
          · exact absurd ⟨w, p, z⟩ k
          · exact ⟨w, x, p, q, z⟩

/-- What `freeSlot` leaves of the Intake Unit and the Completion Writer; the two lists only grow. -/
theorem freeSlot_more (s : State) (n : SlotId) :
    (freeSlot s n).intake.engine = s.intake.engine ∧ (freeSlot s n).intake.arbiter = s.intake.arbiter ∧
    (freeSlot s n).writer.ring = s.writer.ring ∧ (freeSlot s n).writer.txn = s.writer.txn ∧
    (freeSlot s n).writer.count = s.writer.count ∧ (freeSlot s n).writer.delayTimer = s.writer.delayTimer ∧
    (∀ r, (freeSlot s n).ring r = { s.ring r with blocked := (s.ring r).slotFreed.blocked, barrierPending :=
        ((freeSlot s n).ring r).barrierPending } ) ∧
    (∀ r, (s.ring r).barrierPending = false → ((freeSlot s n).ring r).barrierPending = false) ∧
    (∀ x ∈ s.writer.holding, x ∈ (freeSlot s n).writer.holding) ∧
        (∀ x ∈ s.writer.waitList, x ∈ (freeSlot s n).writer.waitList) ∧
    s.writer.holding.length ≤ (freeSlot s n).writer.holding.length := by
  obtain ⟨v, H, e⟩ := freeSlot_waitSetsLeft s n
  rw [e]
  obtain ⟨e1, j1, h1, h2, -⟩ := H.off
  refine ⟨H.eng.1, H.eng.2, H.wr.1, H.wr.2.1, H.wr.2.2.1, H.wr.2.2.2, ?_, ?_, ?_, ?_, ?_⟩
  · intro r
    rw [unblockSlot_ring, H.ring r]
    have : ((s.setSlot n none).ring r) = s.ring r := rfl
    rw [this]
    unfold Ring.slotFreed; simp only; split <;> rfl
  · intro r h; rw [unblockSlot_ring, (slotFreed_fields _).1]; exact H.bpm r h
  · intro x hx
    have : v.unblockSlot.writer.holding = s.writer.holding ++ e1.map HeldRecord.job := h1
    rw [this]; simp [hx]
  · intro x hx
    have : v.unblockSlot.writer.waitList = s.writer.waitList ++ j1.map Candidate.job := h2
    rw [this]; simp [hx]
  · have : v.unblockSlot.writer.holding = s.writer.holding ++ e1.map HeldRecord.job := h1
    rw [this]; simp

/-- From `s` to `u` a candidate has taken a place in the holding queue, and nothing else has happened (R138). -/
structure State.Enters (s u : State) (front : Option Candidate) (freed : SlotId →
    Bool) (held : List HeldRecord) (waits : List Candidate) : Prop where
  fr : s.frees u freed held waits
  en : s.entersFrom u front (allSlots.filter freed)
  wr : u.writer.ring = s.writer.ring ∧ u.writer.txn = s.writer.txn ∧ u.writer.count = s.writer.count ∧
      u.writer.delayTimer = s.writer.delayTimer
  re : u.ctl = s.ctl ∧ u.pool = s.pool ∧ u.creds = s.creds ∧ u.supply = s.supply

theorem entersFrom_nil (s : State) : s.entersFrom s none [] := by
  constructor <;> (try (simp; done))
  intro r h; refine ⟨.inr h, ?_⟩; rw [h]; simp

/-- Lane `k` once lane `i` is `l`. -/
theorem setLane_lane (s : State) (i k : LaneId) (l : Lane) : (s.setLane i l).lane k = if i = k then l else
    s.lane k := by
  simp only [State.lane, State.setLane, Vector.getElem_set]
  by_cases h : i = k
  · subst h; simp
  · have : i.val ≠ k.val := fun e => h (Fin.ext e)
    simp [h, this]

/-- A candidate that has a record enters the holding queue (R138). -/
theorem enterHolding_enters (s : State) (c : Candidate) (x : HeldRecord) (h : s.recordFor c = some x) :
    State.Enters s (enterHolding s c) (some c) (fun m => c == .intakeJob m)
        (s.writer.holding ++ [x]) s.writer.waitList := by
  have nof : ∀ c : Candidate, (∀ n, c ≠ .intakeJob n) → (fun m => c == .intakeJob m) = (fun _ : SlotId => false) := by
    intro c hc; funext m; simpa using hc m
  have fnil : allSlots.filter (fun _ : SlotId => false) = [] := by simp
  cases c with
  | job n =>
    simp only [State.recordFor, Option.some.injEq] at h; subst h
    rw [nof _ (by simp)]
    have e : enterHolding s (.job n) = s.pushHolding (.job n) := rfl
    rw [e]
    refine ⟨frees_none rfl (fun _ => rfl), ?_, ⟨rfl, rfl, rfl, rfl⟩, ⟨rfl, rfl, rfl, rfl⟩⟩
    rw [fnil]
    constructor <;> (try (simp [State.pushHolding]; done)) <;> (try (intros; rfl)) <;> (try (intro r h; exact h))
    · simp [State.pushHolding, State.recordFor, State.ring]
    · intro r h; have h' : ((s.pushHolding (HeldRecord.job n)).ring r).blocked = .laneQueue := h
      have h2 : (s.ring r).blocked = .laneQueue := h
      refine ⟨.inr h', ?_⟩; rw [h']; simp
  | engine =>
    rw [nof _ (by simp)]
    cases he : s.intake.engine with
    | waiting comp =>
      simp only [State.recordFor, he, Option.some.injEq] at h; subst h
      have e : enterHolding s .engine = ((s.pushHolding (.intake comp)).setEngine .free).modRing comp.ring
          (fun r => { r.advance with inIntake := false }) := by
        simp [enterHolding, he]
      rw [e]
      have R : ∀ r, (((s.pushHolding (.intake comp)).setEngine .free).modRing comp.ring
          (fun r => { r.advance with inIntake := false })).ring r = if comp.ring =
          r then { (s.ring r).advance with inIntake := false } else s.ring r := by
        intro r; rw [State.ring_modRing]; rfl
      refine ⟨frees_none rfl (fun r => by rw [R]; split <;> rfl), ?_, ⟨rfl, rfl, rfl, rfl⟩, ⟨rfl, rfl, rfl, rfl⟩⟩
      rw [fnil]
      constructor
      · simp [State.modRing, State.setEngine]
      · intro i; simp
      · rfl
      · intro r; rw [R]; split <;> rfl
      · intro y _ hy; rw [he] at hy; cases hy; rw [R, if_pos rfl]; rfl
      · intro r hr; rw [R, if_neg]; intro c; exact hr ⟨comp, rfl, he, c⟩
      · intro r; rw [R]; simp only [State.recordFor, Option.bind_some, he]
        by_cases c : comp.ring = r <;> simp [c]
      · intro r hr; rw [R]; split <;> simpa [Ring.advance] using hr
      · intro r hr; rw [R]; split <;> simpa [Ring.advance] using hr
      · intro r hr; rw [R]; split <;> simp [Ring.advance, hr]
    | free => simp [State.recordFor, he] at h
    | recordRead _ _ => simp [State.recordFor, he] at h
    | credentialRead _ _ => simp [State.recordFor, he] at h
  | laneEvent i =>
    rw [nof _ (by simp)]
    cases he : (s.lane i).pendingEvent with
    | none => simp [State.recordFor, he] at h
    | some ev =>
      simp only [State.recordFor, he, Option.map_some, Option.some.injEq] at h; subst h
      have e : enterHolding s (.laneEvent i) = (s.pushHolding (.event i ev)).modLane i
          (fun l => { l with pendingEvent := none }) := by
        simp [enterHolding, he]
      rw [e]
      refine ⟨frees_none rfl (fun r => rfl), ?_, ⟨rfl, rfl, rfl, rfl⟩, ⟨rfl, rfl, rfl, rfl⟩⟩
      rw [fnil]
      constructor
      · simp
      · intro k; simp only [State.modLane, setLane_lane, Option.some.injEq, Candidate.laneEvent.injEq]
        by_cases c : i = k
        · subst c; simp
        · simp [c]
      · rfl
      · intro r; rfl
      · intro y hy; simp at hy
      · intro r _; rfl
      · intro r; simp only [State.recordFor, Option.bind_some, he]; simp
      · intro r hr; exact hr
      · intro r hr; simpa using hr
      · intro r hr
        have h' : (((s.pushHolding (.event i ev)).modLane i (fun l => { l with pendingEvent :=
            none })).ring r).blocked = .laneQueue := hr
        refine ⟨.inr h', ?_⟩; rw [h']; simp
  | intakeJob n =>
    cases hj : s.slot n with
    | none => simp [State.recordFor, hj] at h
    | some j =>
      cases hi : j.intakeEnd with
      | none => simp [State.recordFor, hj, hi] at h
      | some ed =>
        simp only [State.recordFor, hj, hi, Option.map_some, Option.some.injEq] at h
        set w := ((s.pushHolding x).modRing j.ring (fun r => { r with inIntake := false })) with hw
        have e : enterHolding s (.intakeJob n) = (freeSlot w n).unblockLanes j.spec.lanes := by
          simp only [enterHolding, hj, hi]; rw [hw, ← h]; rfl
        rw [e]
        obtain ⟨u1, u2, u3, u4, u5, u6, u7, u8, u9, u10⟩ := unblockLanes_spec j.spec.lanes (freeSlot w n)
        obtain ⟨m1, m2, m3, m4, m5, m6, m7, m8, -, -⟩ := freeSlot_more w n
        have wR : ∀ r, w.ring r = if j.ring = r then { s.ring r with inIntake := false } else s.ring r := by
          intro r; rw [hw, State.ring_modRing]; rfl
        have F := freeSlot_frees w n
        have ff : (fun m => (Candidate.intakeJob n) == .intakeJob m) = (fun m : SlotId => m == n) := by
          funext m; by_cases c : n = m
          · subst c; simp
          · have : m ≠ n := fun e => c e.symm
            simp [c, this]
        have fr0 := freeSlot_frame w n
        refine ⟨?_, ?_, ?_, ?_⟩
        · rw [ff]
          have a4 : ∀ m, ((freeSlot w n).unblockLanes j.spec.lanes).slot m =
              (freeSlot w n).slot m := fun m => by simp [State.slot]
          have a5 : ∀ r, (((freeSlot w n).unblockLanes j.spec.lanes).ring r).barrierPending =
              ((freeSlot w n).ring r).barrierPending := by
            intro r; rw [(u1 r).1]
          have b1 : ∀ m, w.slot m = s.slot m := fun m => rfl
          have b2 : ∀ r, (w.ring r).barrierPending = (s.ring r).barrierPending := by intro r; rw [wR]; split <;> rfl
          have b3 : ∀ m, w.lastFreed (fun m => m == n) m ↔ s.lastFreed (fun m => m == n) m := fun m => Iff.rfl
          obtain ⟨c1, c2, c3, c4, c5, c6⟩ := F
          simp only [← a4, ← a5, b1, b2, b3] at c1 c2 c3 c4 c5 c6
          rw [← u5] at c4 c6
          exact ⟨c1, c2, c3, c4, c5, c6⟩
        · rw [ff]
          have fne : allSlots.filter (fun m : SlotId => m == n) ≠ [] := by
            intro c; rw [List.filter_eq_nil_iff] at c; exact c n (mem_allSlots n) (by simp)
          have RR : ∀ r, ((freeSlot w n).unblockLanes j.spec.lanes).ring r =
              { w.ring r with
                blocked := (((freeSlot w n).unblockLanes j.spec.lanes).ring r).blocked
                barrierPending := (((freeSlot w n).unblockLanes j.spec.lanes).ring r).barrierPending } := by
            intro r; rw [(u1 r).1, m7 r]
          have bl : ∀ r, ((freeSlot w n).ring r).blocked = (s.ring r).slotFreed.blocked := by
            intro r; rw [m7 r, wR]; split <;> simp [Ring.slotFreed]; split <;> rfl
          have hl : ∀ r, ((freeSlot w n).ring r).held = (s.ring r).held := by
            intro r; rw [m7 r, wR]; split <;> rfl
          constructor
          · rw [u3, m1]; simp; rfl
          · intro k; simp only [State.lane, u6, fr0.2.1]; simp; rfl
          · rw [u4, m2]; rfl
          · intro r; rw [RR r, wR]; split <;> rfl
          · intro y hy; simp at hy
          · intro r _; rw [RR r, wR]; split <;> rfl
          · intro r; rw [RR r, wR]; simp only [State.recordFor, Option.bind_some, hj, hi, Option.map_some]
            by_cases c : j.ring = r <;> simp [c]
          · intro r hr; rw [(u1 r).2.1]
            · rw [bl]; simp [Ring.slotFreed, hr]
            · rw [bl]; simp [Ring.slotFreed, hr]
          · intro r hr; rw [if_neg fne, (u1 r).2.1]
            · rw [bl]; simp [Ring.slotFreed, hr]
            · rw [bl]; simp [Ring.slotFreed, hr]
          · intro r hr
            have hb : ((freeSlot w n).ring r).blocked = .laneQueue := by rw [bl]; simp [Ring.slotFreed, hr]
            obtain ⟨c1, c2⟩ := (u1 r).2.2 hb
            refine ⟨c1, c2.trans ?_⟩
            rw [hl]
            constructor
            · rintro ⟨q, i, p1, p2, p3⟩; exact ⟨n, j, q, i, rfl, hj, p1, p2, p3⟩
            · rintro ⟨n', j', q, i, p0, p1, p2, p3, p4⟩
              simp at p0; subst p0; rw [hj] at p1; cases p1; exact ⟨q, i, p2, p3, p4⟩
        · rw [u5]; exact ⟨m3, m4, m5, m6⟩
        · rw [u7, u8, u9, u10]; exact ⟨fr0.1, fr0.2.2.1, fr0.2.2.2.1, fr0.2.2.2.2.1⟩

/-- A candidate that has none changes nothing. -/
theorem enterHolding_of_none (s : State) (c : Candidate) (h : s.recordFor c = none) : enterHolding s c = s := by
  cases c with
  | job n => simp [State.recordFor] at h
  | engine => cases he : s.intake.engine <;> simp_all [State.recordFor, enterHolding]
  | laneEvent i => cases he : (s.lane i).pendingEvent <;> simp_all [State.recordFor, enterHolding]
  | intakeJob n =>
    cases hj : s.slot n with
    | none => simp [enterHolding, hj]
    | some j => cases hi : j.intakeEnd <;> simp_all [State.recordFor, enterHolding]

theorem enters_refl (s : State) : State.Enters s s none (fun _ => false) s.writer.holding s.writer.waitList := by
  refine ⟨frees_none rfl (fun _ => rfl), ?_, ⟨rfl, rfl, rfl, rfl⟩, ⟨rfl, rfl, rfl, rfl⟩⟩
  have : allSlots.filter (fun _ : SlotId => false) = [] := by simp
  rw [this]; exact entersFrom_nil s

/-- The front of the wait list takes a free place (R138). -/
theorem promote_enters (s : State) :
    let room : Bool := s.ctl.device != .fault && decide (s.writer.holding.length < 8)
    let front : Option Candidate := if room then s.writer.waitList.head?.filter
        (fun c => (s.recordFor c).isSome) else none
    let waits : List Candidate := if room then s.writer.waitList.tail else s.writer.waitList
    State.Enters s (promote s) front (fun m => front == some (.intakeJob m))
        (s.writer.holding ++ (front.bind s.recordFor).toList) waits := by
  intro room front waits
  have nn : (fun m : SlotId => (none : Option Candidate) == some (.intakeJob m)) = fun _ => false := by funext m; rfl
  cases hw : s.writer.waitList with
  | nil =>
    have f : front = none := by simp [front, hw]
    have w : waits = [] := by simp [waits, hw]
    have p : promote s = s := by simp [promote, hw]
    rw [f, w, p, nn]; simpa [hw] using enters_refl s
  | cons c rest =>
    cases hr : room with
    | false =>
      have f : front = none := by simp [front, hr]
      have w : waits = s.writer.waitList := by simp [waits, hr]
      have p : promote s = s := by
        simp only [promote, hw]; exact if_neg (fun c => Bool.false_ne_true (hr.symm.trans c))
      rw [f, w, p, nn]; simpa using enters_refl s
    | true =>
      have w : waits = rest := by simp [waits, hr, hw]
      set s2 : State := { s with writer := { s.writer with waitList := rest } } with hs2
      have p : promote s = enterHolding s2 c := by
        simp only [promote, hw]; exact if_pos hr
      have rc : s2.recordFor = s.recordFor := recordFor_congr rfl rfl rfl
      cases hx : s.recordFor c with
      | none =>
        have f : front = none := by simp [front, hr, hw, hx]
        rw [f, w, p, nn, enterHolding_of_none s2 c (by rw [rc]; exact hx)]
        have E := enters_refl s2
        have Q : s.frees s2 _ _ _ := frees_congr (s' := s2) (t' := s2) rfl rfl rfl rfl rfl rfl rfl E.fr
        exact ⟨by simpa [hs2] using Q, enters_congr (s' := s2) (t' := s2) rfl rfl rfl rfl rfl E.en, E.wr, E.re⟩
      | some x =>
        have f : front = some c := by simp [front, hr, hw, hx]
        have ff : (fun m : SlotId => some c == some (Candidate.intakeJob m)) = fun m => c == .intakeJob m := by
          funext m; rfl
        rw [f, w, p, ff]
        have E := enterHolding_enters s2 c x (by rw [rc]; exact hx)
        refine ⟨?_, enters_congr (s' := s2) (t' := enterHolding s2 c) rfl rfl rfl rfl rfl E.en, E.wr, E.re⟩
        have Q : s.frees (enterHolding s2 c) _ _ _ := frees_congr (s' := s2) (t' :=
            enterHolding s2 c) rfl rfl rfl rfl rfl rfl rfl E.fr
        have e : (s.writer.holding ++ ((some c).bind s.recordFor).toList) = s.writer.holding ++ [x] := by simp [hx]
        rw [e]; exact Q

end Sys2Proof.Machine
end

