-- ==== Sys2Proof/Laws/Outputs.lean ====
section
/-! SUPPORT. The record of output changes as the statements word it: MODE, RESET and POWER driven in this order. -/

namespace Sys2Proof.Machine

/-- The record holds what was there, and then the change of each output that is driven: MODE, RESET, POWER (R26). -/
theorem Lane.outputsAfter_eq (l : Lane) (mode reset power : Option Bool) :
    l.outputsAfter mode reset power = l.outputs ++ mode.elim [] (outputChange .mode l.modePin)
      ++ reset.elim [] (outputChange .reset l.resetPin) ++ power.elim [] (outputChange .power l.power) := by
  cases mode <;> cases reset <;> cases power <;> rfl

/-- The three outputs driven one after the other leave the record that `outputsAfter` names (R26). -/
theorem Lane.outputsAfter_all (l : Lane) (mode reset power : Bool) :
    (((l.driveMode mode).driveReset reset).drivePower power).outputs
      = l.outputsAfter (some mode) (some reset) (some power) := by simp [outputsAfter_eq]

/-- MODE and then RESET driven (R26). -/
theorem Lane.outputsAfter_modeReset (l : Lane) (mode reset : Bool) :
    ((l.driveMode mode).driveReset reset).outputs = l.outputsAfter (some mode) (some reset) none := by
  simp [outputsAfter_eq]

/-- RESET and then POWER driven (R26). -/
theorem Lane.outputsAfter_resetPower (l : Lane) (reset power : Bool) :
    ((l.driveReset reset).drivePower power).outputs = l.outputsAfter none (some reset) (some power) := by
  simp [outputsAfter_eq]

/-- One output driven alone. -/
theorem Lane.outputsAfter_one (l : Lane) (on : Bool) :
    (l.driveMode on).outputs = l.outputsAfter (some on) none none
      ∧ (l.driveReset on).outputs = l.outputsAfter none (some on) none
      ∧ (l.drivePower on).outputs = l.outputsAfter none none (some on) := by simp [outputsAfter_eq]

end Sys2Proof.Machine
end

