-- ==== Sys2Proof/Laws/PerInstr.lean ====
section
/-! SUPPORT. Commands and writes of the register window, one lemma for each command: a well-formed command that stands
for a register write is the one that a write of its word decodes to, and no write is any other command (R157, R169). -/

namespace Sys2Proof.Laws.WriteForm

/-- The write of the register window (offset, width, word) that a command stands for, if it is a register write. -/
def writeOf (i : Instr) : Option (Nat × Nat × BitVec 32) :=
  match i with
  | .powerOnReset => none
  | .softReset => some (0x08, 32, 4)
  | .enable withHalt => some (0x08, 32, if withHalt then 3 else 1)
  | .halt => some (0x08, 32, 2)
  | .submitWrite value => some (0x10, 32, value)
  | .cqHeadWrite value => some (0x14, 32, value)
  | .irqWrite value => some (0x18, 32, value)
  | .statusWrite value => some (0x0C, 32, value)
  | .configAddrWrite half value => some (match half with | .low => 0x00 | .high => 0x04, 32, value)
  | .registerWriteIgnored offset bits value => some (offset, bits, value)
  | .configReadEnd _ _ => none
  | .drainComplete => none
  | .intakeArbiterChoice => none
  | .recordReadEnd _ _ => none
  | .listReadEnd _ _ _ => none
  | .loadCredentialReadEnd _ _ => none
  | .holdingQueueEntry => none
  | .completionTransactionStart => none
  | .resultRecordWriteEnd _ _ _ => none
  | .completionRecordWriteEnd _ _ => none
  | .coalescingDelayExpiry => none
  | .stagingReadIssue => none
  | .stagingReadEnd _ _ _ => none
  | .chunkSend _ => none
  | .readbackWriteEnd _ _ _ => none
  | .frameSent _ => none
  | .responseTimeout _ => none
  | .frameReceived _ _ => none
  | .frameSpoiled _ _ _ => none
  | .frameGapTimeout _ => none
  | .trainingPatternSent _ => none
  | .trainingCharacterReceived _ _ => none
  | .trainingTimeout _ => none
  | .powerSettleExpiry _ => none
  | .checkWaitExpiry _ => none
  | .resetPulseExpiry _ => none
  | .bootSettleExpiry _ => none
  | .rateGapExpiry _ => none
  | .superviseTimerExpiry => none
  | .conversionStart => none
  | .conversionEnd _ => none
  | .overcurrentTrip _ => none
  | .frameCharacterReceived _ _ => none

/-- The write that a command stands for decodes to it; a command that stands for none is decoded from no write. -/
def Statement (i : Instr) : Prop :=
  match writeOf i with
  | some (offset, bits, value) => i.wf = true → commandOfWrite offset bits value = i
  | none => ∀ (offset bits : Nat) (value : BitVec 32), commandOfWrite offset bits value ≠ i

/-- Every command that a write decodes to stands for a write. -/
theorem writeOf_commandOfWrite (offset bits : Nat) (value : BitVec 32) :
    writeOf (commandOfWrite offset bits value) ≠ none := by
  unfold commandOfWrite commandOfControl
  repeat' split
  all_goals simp [writeOf]

/-- A command that stands for no write is decoded from none. -/
theorem write_ne {i : Instr} (h : writeOf i = none) : Statement i := by
  unfold Statement
  rw [h]
  intro offset bits value e
  exact writeOf_commandOfWrite offset bits value (e ▸ h)

/-- A write that asks for nothing decodes to itself. -/
theorem ignored_write {offset bits : Nat} {value : BitVec 32}
    (h : (Instr.registerWriteIgnored offset bits value).wf = true) :
    commandOfWrite offset bits value = .registerWriteIgnored offset bits value := by
  simp only [Instr.wf, ignoredWrite, writableOffsets, controlOffset, Bool.and_eq_true, Bool.or_eq_true,
    decide_eq_true_eq, beq_iff_eq] at h
  obtain ⟨⟨h, hb⟩, -⟩ := h
  by_cases h32 : bits < 32
  · simp [commandOfWrite, h32]
  · obtain rfl : bits = 32 := by omega
    by_cases h8 : offset = 8
    · subst h8
      have hv : value &&& 7#32 = 0#32 := by simpa using h
      have bit : ∀ n : Nat, n < 3 → value.getLsbD n = false := by
        intro n hn
        have := congrArg (fun x : BitVec 32 => x.getLsbD n) hv
        simp only [BitVec.getLsbD_and, BitVec.getLsbD_zero] at this
        interval_cases n <;> simpa using this
      have b0 := bit 0 (by omega)
      have b1 := bit 1 (by omega)
      have b2 := bit 2 (by omega)
      simp only [commandOfWrite, commandOfControl, controlOffset, b0, b1, b2]
      rfl
    · simp only [h32, h8, false_or, or_false, false_and] at h
      simp at h
      obtain ⟨a0, a4, -, ac, a10, a14, a18⟩ := h
      simp [commandOfWrite, a0, a4, h8, ac, a10, a14, a18]

theorem powerOnReset : Statement (.powerOnReset) := write_ne rfl

theorem softReset : Statement (.softReset) := fun _ => rfl

theorem enable (withHalt : Bool) : Statement (.enable withHalt) := by cases withHalt <;> exact fun _ => rfl

theorem halt : Statement (.halt) := fun _ => rfl

theorem submitWrite (value : BitVec 32) : Statement (.submitWrite value) := by
  simp [Statement, writeOf, commandOfWrite]

theorem cqHeadWrite (value : BitVec 32) : Statement (.cqHeadWrite value) := by
  simp [Statement, writeOf, commandOfWrite]

theorem irqWrite (value : BitVec 32) : Statement (.irqWrite value) := by simp [Statement, writeOf, commandOfWrite]

theorem statusWrite (value : BitVec 32) : Statement (.statusWrite value) := by
  simp [Statement, writeOf, commandOfWrite]

theorem configAddrWrite (half : AddrHalf) (value : BitVec 32) : Statement (.configAddrWrite half value) := by
  cases half <;> simp [Statement, writeOf, commandOfWrite]

theorem registerWriteIgnored (offset : Nat) (bits : Nat) (value : BitVec 32) :
    Statement (.registerWriteIgnored offset bits value) :=
  ignored_write

theorem configReadEnd (epoch : Epoch) (result : HostRead) : Statement (.configReadEnd epoch result) :=
  write_ne rfl

theorem drainComplete : Statement (.drainComplete) := write_ne rfl

theorem intakeArbiterChoice : Statement (.intakeArbiterChoice) := write_ne rfl

theorem recordReadEnd (epoch : Epoch) (result : HostRead) : Statement (.recordReadEnd epoch result) :=
  write_ne rfl

theorem listReadEnd (epoch : Epoch) (slot : SlotId) (result : HostRead) :
    Statement (.listReadEnd epoch slot result) :=
  write_ne rfl

theorem loadCredentialReadEnd (epoch : Epoch) (result : HostRead) : Statement (.loadCredentialReadEnd epoch result) :=
  write_ne rfl

theorem holdingQueueEntry : Statement (.holdingQueueEntry) := write_ne rfl

theorem completionTransactionStart : Statement (.completionTransactionStart) := write_ne rfl

theorem resultRecordWriteEnd (epoch : Epoch) (lane : LaneId) (result : HostWrite) :
    Statement (.resultRecordWriteEnd epoch lane result) :=
  write_ne rfl

theorem completionRecordWriteEnd (epoch : Epoch) (result : HostWrite) :
    Statement (.completionRecordWriteEnd epoch result) :=
  write_ne rfl

theorem coalescingDelayExpiry : Statement (.coalescingDelayExpiry) := write_ne rfl

theorem stagingReadIssue : Statement (.stagingReadIssue) := write_ne rfl

theorem stagingReadEnd (epoch : Epoch) (block : BlockId) (result : HostRead) :
    Statement (.stagingReadEnd epoch block result) :=
  write_ne rfl

theorem chunkSend (lane : LaneId) : Statement (.chunkSend lane) := write_ne rfl

theorem readbackWriteEnd (epoch : Epoch) (lane : LaneId) (result : HostWrite) :
    Statement (.readbackWriteEnd epoch lane result) :=
  write_ne rfl

theorem frameSent (lane : LaneId) : Statement (.frameSent lane) := write_ne rfl

theorem responseTimeout (lane : LaneId) : Statement (.responseTimeout lane) := write_ne rfl

theorem frameReceived (lane : LaneId) (chars : List Byte) : Statement (.frameReceived lane chars) :=
  write_ne rfl

theorem frameSpoiled (lane : LaneId) (chars : List Byte) (bad : Option RxChar) :
    Statement (.frameSpoiled lane chars bad) :=
  write_ne rfl

theorem frameGapTimeout (lane : LaneId) : Statement (.frameGapTimeout lane) := write_ne rfl

theorem trainingPatternSent (lane : LaneId) : Statement (.trainingPatternSent lane) := write_ne rfl

theorem trainingCharacterReceived (lane : LaneId) (char : RxChar) :
    Statement (.trainingCharacterReceived lane char) :=
  write_ne rfl

theorem trainingTimeout (lane : LaneId) : Statement (.trainingTimeout lane) := write_ne rfl

theorem powerSettleExpiry (lane : LaneId) : Statement (.powerSettleExpiry lane) := write_ne rfl

theorem checkWaitExpiry (lane : LaneId) : Statement (.checkWaitExpiry lane) := write_ne rfl

theorem resetPulseExpiry (lane : LaneId) : Statement (.resetPulseExpiry lane) := write_ne rfl

theorem bootSettleExpiry (lane : LaneId) : Statement (.bootSettleExpiry lane) := write_ne rfl

theorem rateGapExpiry (lane : LaneId) : Statement (.rateGapExpiry lane) := write_ne rfl

theorem superviseTimerExpiry : Statement (.superviseTimerExpiry) := write_ne rfl

theorem conversionStart : Statement (.conversionStart) := write_ne rfl

theorem conversionEnd (senseMv : Int) : Statement (.conversionEnd senseMv) := write_ne rfl

theorem overcurrentTrip (lane : LaneId) : Statement (.overcurrentTrip lane) := write_ne rfl

theorem frameCharacterReceived (lane : LaneId) (char : RxChar) : Statement (.frameCharacterReceived lane char) :=
  write_ne rfl

end Sys2Proof.Laws.WriteForm
end

