-- ==== Sys2Proof/Tests/Slice0.lean ====
section
/-! SUPPORT. The model's own tests: the checks of WellFormed refuse, known values of the two CRCs, words of the register
window, one or two steps of each command against the spec's own examples, and for every statement with hypotheses a
state that meets them. -/

open Sys2Proof Sys2Proof.Machine

set_option Elab.async false

namespace Sys2Proof.Tests

/-! ### Small states -/

/-- Values in force: response timeout 50 ms and wait cap 2 000 ms, as in the example of R23. -/
def settings : Settings :=
  { threshold := 2, delay := 100, responseTimeout := 50, waitCap := 2000, reserve := 1, supervisePeriod := 10
    mask := { cq := true, fault := true, halt := true } }

/-- An idle part in a device state, with values in force and ring 0 and the completion ring in use. -/
def at' (d : DeviceState) : State :=
  { State.reset with
    ctl := { Control.reset with device := d, inForce := some settings, configAddr := 0x40 }
    intake := { Intake.reset with rings := Intake.reset.rings.set 0 { Ring.reset with base := 0x1000, size := 4 } }
    writer := { Writer.reset with ring := { Writer.reset.ring with size := 16 } } }

/-- A segment of two blocks. -/
def seg : Segment := { hostAddr := 0x4000, target := 0x100, length := 256, crc := 0x11, hasCrc := true }

/-- A record for lane 0 with a list of one entry. -/
def spec (p : Params) : JobSpec :=
  { tag := 7, lanes := 1, flags := 0, retryLimit := 1, listAddr := 0x1000, listCount := 1, resultAddr := 0x2000
    params := p }

/-- A record for lane 0 without a list. -/
def bare (p : Params) : JobSpec := { spec p with listAddr := 0, listCount := 0 }

/-- A record that names no lane and has no list. -/
def nolane (p : Params) : JobSpec := { bare p with lanes := 0, resultAddr := 0 }

/-- A job of ring 0 for lane 0 in a slot state. -/
def job (p : Params) (state : SlotState) : Job :=
  { newJob 0 (spec p) with state := state, listRead := false, list := [seg] }

/-- ATTACH parameters. -/
def attach : AttachParams :=
  { startRate := 0, targetRate := 4, powerSettle := 20, resetPulse := 10, bootSettle := 30, vmin := 3000, vmax := 3600
    selector := .auto }

/-- An identity record with rates 0 and 4. -/
def ident : Identity :=
  { deviceClass := 0x1234, loaderVersion := 1, level := 0, flashBase := 0, flashSize := 1048576, sectorSize := 4096
    granule := 8, maxWrite := 128, credentialRequired := true, attempts := 5, rates := 0x11 }

/-- A lane READY in a session, with the job of slot 0 at this step. -/
def ready (st : Step) : Lane :=
  { Lane.reset with
    power := true, resetPin := false, modePin := true, state := .ready, identity := some ident, nextSeq := 6
    queue := [0], step := st, vmin := 3000, vmax := 3600, lastSample := 3300 }

/-- A request with seq 5 whose response timer runs. -/
def req (k : ReqKind) (payload : List Byte) : Request :=
  { kind := k, seq := 5, retries := 0, waits := 0, timer := some 50, payload := payload }

/-- A lane BUSY with that request, whose frame has gone out. -/
def busy (st : Step) (k : ReqKind) (payload : List Byte) : Lane :=
  { ready st with state := .busy, outstanding := some (req k payload) }

/-- A readback host write. -/
def payloadOut : HostWriteOut := { addr := 0x8000, bytes := [7, 9] }

/-- A lane READY at this step with a readback host write in flight. -/
def landing (st : Step) : Lane := { ready st with readback := some payloadOut }

/-- A device state with this lane 0 and this job in slot 0. -/
def work (d : DeviceState) (l : Lane) (j : Job) : State := ((at' d).setLane 0 l).setSlot 0 (some j)

/-- The record read of ring 0 is in flight. -/
def reading (s : State) : State := s.setEngine (.recordRead 0 0x1000)

/-- A 64-byte job record with tag 7 and retry limit 1. -/
def record (kind lanes flags listAddr count result : Nat) (fields : List Byte) : List Byte :=
  let front := leBytes 1 kind ++ [1] ++ leBytes 2 7 ++ leBytes 2 lanes ++ leBytes 2 flags ++ leBytes 8 listAddr
    ++ leBytes 8 count ++ leBytes 8 result ++ fields
  front ++ List.replicate (64 - front.length) 0

/-- The fields of an ATTACH's record (11.2). -/
def attachFields : List Byte :=
  [0, 4] ++ leBytes 2 20 ++ [10, 0x10] ++ leBytes 2 30 ++ leBytes 2 3000 ++ leBytes 2 3600

/-- A configuration block with all four rings of a size. -/
def block (ringSize threshold : Nat) : List Byte :=
  leBytes 8 0 ++ leBytes 8 64 ++ leBytes 8 128 ++ leBytes 8 192 ++ leBytes 2 ringSize ++ leBytes 2 ringSize
    ++ leBytes 2 ringSize ++ leBytes 2 ringSize ++ leBytes 8 0x3000 ++ leBytes 2 16 ++ leBytes 1 threshold ++ [1]
    ++ leBytes 2 100 ++ leBytes 2 50 ++ leBytes 2 2000 ++ leBytes 2 10 ++ [7] ++ [0, 0, 0]

/-- The state that a command leaves. -/
def after (r : Result) : State :=
  match r with
  | .next s => s
  | .fault _ => State.reset
  | .refused _ => State.reset

/-- A state whose slots are all FREE has no job in any. -/
theorem noJob {s : State} (h : s.slots = Vector.replicate 32 none) (n : SlotId) (k : Job) : s.slot n ≠ some k := by
  simp [State.slot, h]

/-- With one slot in use, that slot's job is the only one. -/
theorem oneJob {s : State} {j : Job} (h : s.slots = (Vector.replicate 32 none).set 0 (some j)) {n : SlotId} {k : Job}
    (hs : s.slot n = some k) : n = 0 ∧ k = j := by
  simp only [State.slot, h, Vector.getElem_set, Vector.getElem_replicate] at hs
  split at hs
  · exact ⟨by ext; simp; omega, by simpa using hs.symm⟩
  · cases hs

/-! ### WellFormed: one ill-formed command for each check -/

theorem test_wf_refuses_effective_write : (Instr.registerWriteIgnored 0x18 32 1).wf = false := by decide
theorem test_wf_refuses_wide_write : (Instr.registerWriteIgnored 0x1C 64 1).wf = false := by decide
theorem test_wf_refuses_offset_outside : (Instr.registerWriteIgnored 0x40 32 1).wf = false := by decide
theorem test_wf_refuses_short_config : (Instr.configReadEnd .live (.good [1])).wf = false := by decide
theorem test_wf_refuses_short_record : (Instr.recordReadEnd .live (.good [])).wf = false := by decide
theorem test_wf_refuses_odd_list : (Instr.listReadEnd .live 0 (.good [0, 0])).wf = false := by decide
theorem test_wf_refuses_empty_list : (Instr.listReadEnd .live 0 (.good [])).wf = false := by decide
theorem test_wf_refuses_long_list : (Instr.listReadEnd .live 0 (.good (List.replicate 408 0))).wf = false := by
  decide +kernel
theorem test_wf_refuses_short_credential : (Instr.loadCredentialReadEnd .live (.good [1, 2, 3])).wf = false := by decide
theorem test_wf_refuses_long_credential :
    (Instr.loadCredentialReadEnd .live (.good (List.replicate 33 0))).wf = false := by decide
theorem test_wf_refuses_empty_block : (Instr.stagingReadEnd .live 0 (.good [])).wf = false := by decide
theorem test_wf_refuses_long_block : (Instr.stagingReadEnd .live 0 (.good (List.replicate 129 0))).wf = false := by
  decide +kernel
theorem test_wf_refuses_no_characters : (Instr.frameReceived 0 []).wf = false := by decide
theorem test_wf_refuses_good_spoiler : (Instr.frameSpoiled 0 [0xC5] (some (RxChar.ofByte 1))).wf = false := by decide
theorem test_wf_refuses_empty_spoiler : (Instr.frameSpoiled 0 [] none).wf = false := by decide
theorem test_wf_takes_frame : (Instr.frameReceived 0 (buildFrame 5 0x81 [])).wf = true := by decide +kernel

/-! ### Known values -/

/-- The check value of the CRC-16 of R7 over "123456789". -/
theorem test_crc16_check : crc16 [0x31, 0x32, 0x33, 0x34, 0x35, 0x36, 0x37, 0x38, 0x39] = 0x29B1 := by decide +kernel
/-- The check value of the CRC-32 of R20 over "123456789". -/
theorem test_crc32_check : crc32 [0x31, 0x32, 0x33, 0x34, 0x35, 0x36, 0x37, 0x38, 0x39] = 0xCBF43926 := by
  decide +kernel
theorem test_even_parity : evenParity 0x07 = true ∧ evenParity 0xC5 = false := by decide
theorem test_character_bits :
    characterBits 0xC5 = [false, true, false, true, false, false, false, true, true, false, true] := by decide
/-- R170: the bound on an outstanding request with retry limit 3, 20 ms of sending and the values of R23. -/
theorem test_request_bound : requestBound 3 20 50 2000 = 510280 := by decide
/-- Three characters 0x55 go out as a training pattern, each with start bit 0, the lowest bit first, parity 0 and stop bit
1 (R3, R4). -/
theorem test_pattern_bits :
    (Tx.pattern [0x55, 0x55, 0x55]).bits = (List.replicate 3 [false, true, false, true, false, true, false, true, false,
      false, true]).flatten := by decide
theorem test_frame_round_trip : rxStatus (buildFrame 9 0x04 [0xC5, 1]) = .good 9 0x04 [0xC5, 1] := by decide +kernel
/-- A WRITE of one chunk of 128 bytes has the longest payload, 132 (R6). -/
theorem test_longest_frame : (buildFrame 9 0x04 (List.replicate 132 0)).length = 138 := by decide +kernel

/-- A loader with the identity of `ident`. -/
def loader : Loader :=
  { deviceClass := 0x1234, loaderVersion := 1, flashBase := 0x100, sectorSize := 256, granule := 8, maxWrite := 128
    rates := 0x11, flash := List.replicate 256 0, level := 0, credential := [1, 2, 3, 4], required := true
    attempts := 5, unlocked := false, executing := none, last := none, rate := 0, trainedRate := 0, started := false }

/-- The HELLO that a loader sends is the identity record that the PL16 stores (R13). -/
theorem test_hello_round_trip :
    (parseIdentity loader.hello).flashSize = 256 ∧ (parseIdentity loader.hello).sectorSize = 256
      ∧ (parseIdentity loader.hello).credentialRequired = true ∧ (parseIdentity loader.hello).attempts = 5 := by
  decide +kernel

/-- A HELLO payload with these values, base 0, sectors of 4 096 bytes, granule 8 and chunk 128. -/
def helloOf (cls : List Byte) (size : Nat) (flags attempts rates : Byte) : List Byte :=
  cls ++ [1, 0, 0, 0, 0, 0] ++ beBytes 4 size ++ [0, 0, 0x10, 0, 8, 128, flags, attempts, rates, 0, 0, 0]

/-- A HELLO payload of device class 0x1234 with 1 MiB of flash, a credential required and these rates supported. -/
def hello (rates : Byte) : List Byte := helloOf [0x12, 0x34] 1048576 1 5 rates

/-- Flash of 1 MiB and of 16 MiB is accepted; a sector less and a sector more are not (R13; log 33). -/
theorem test_flash_size_ends :
    [1048576, 16777216, 1048576 - 4096, 16777216 + 4096].map
      (fun n => (parseIdentity (helloOf [0x12, 0x34] n 1 5 0x11)).accepted 4) = [true, true, false, false] := by
  decide +kernel
/-- A rate code that the record does not support is not accepted as the current one (R13). -/
theorem test_identity_rate : (parseIdentity (hello 0x11)).accepted 1 = false := by decide +kernel
/-- A locked loader refuses a READ with LOCKED before it looks at the range (R15, R18). -/
theorem test_loader_locked_first :
    loader.refusal { seq := 1, kind := 0x05, payload := [0xFF, 0, 0, 0, 0, 1] } = some .locked := by decide +kernel

/-! ### Words of the register window (R157, R169) -/

theorem test_write_control_reset_wins : commandOfWrite 0x08 32 7 = .softReset := by decide
theorem test_write_control_both : commandOfWrite 0x08 32 3 = .enable true := by decide
theorem test_write_control_halt : commandOfWrite 0x08 32 2 = .halt := by decide
theorem test_write_control_nothing : commandOfWrite 0x08 32 8 = .registerWriteIgnored 0x08 32 8 := by decide
theorem test_write_config_addr_high : commandOfWrite 0x04 32 9 = .configAddrWrite .high 9 := by decide
theorem test_write_lane_state : commandOfWrite 0x20 32 9 = .registerWriteIgnored 0x20 32 9 := by decide
theorem test_write_short_submit : commandOfWrite 0x10 16 9 = .registerWriteIgnored 0x10 16 9 := by decide
theorem test_no_word_spells_a_command : State.reset.withFetchWord 32 7 = State.reset := rfl

/-! ### Witnesses: Device Control and registers -/

/-- `ControlWriteTable`: words with SOFT_RESET set, both others, each alone, none; and each device state. -/
theorem witness_ControlWriteTable :
    ((4#32).getLsbD 2 = true) ∧ ((3#32).getLsbD 2 = false ∧ (3#32).getLsbD 0 = true ∧ (3#32).getLsbD 1 = true) ∧
    ((1#32).getLsbD 2 = false ∧ (1#32).getLsbD 0 = true ∧ (1#32).getLsbD 1 = false) ∧
    ((2#32).getLsbD 2 = false ∧ (2#32).getLsbD 0 = false ∧ (2#32).getLsbD 1 = true) ∧
    ((8#32).getLsbD 2 = false ∧ (8#32).getLsbD 0 = false ∧ (8#32).getLsbD 1 = false) ∧
    (∀ d : DeviceState, (at' d).ctl.device = d) := by
  refine ⟨by decide, by decide, by decide, by decide, by decide, fun _ => rfl⟩

theorem drained_at (d : DeviceState) : (at' d).drained := ⟨by simp [at', State.reset, State.slot], rfl, rfl⟩

theorem not_drained_work (d : DeviceState) (l : Lane) (j : Job) : ¬ (work d l j).drained := by
  rintro ⟨h, -, -⟩
  have := h 0
  simp [work, State.slot, State.setSlot] at this

/-- `HaltAndDrain`: RUNNING drained and not, QUIESCING drained and not, another device state. -/
theorem witness_HaltAndDrain :
    ((at' .running).ctl.device = .running ∧ (at' .running).drained) ∧
    ((work .running (ready .none) (job .program .active)).ctl.device = .running ∧
      ¬ (work .running (ready .none) (job .program .active)).drained) ∧
    ((at' .quiescing).ctl.device = .quiescing ∧ (at' .quiescing).drained) ∧
    ¬ (work .quiescing (ready .none) (job .program .active)).drained ∧ (at' .fault).ctl.device ≠ .quiescing :=
  ⟨⟨rfl, drained_at _⟩, ⟨rfl, not_drained_work _ _ _⟩, ⟨rfl, drained_at _⟩, not_drained_work _ _ _, by decide⟩

/-- A completion ring of 16 with `n` unreleased records from host head 14. -/
def cqAt (n : Nat) : State :=
  { at' .running with writer := { Writer.reset with ring :=
    { base := 0, size := 16, tail := (14 + n) % 16, head := 14, unreleased := n, phase := true } } }

/-- `CqHeadReleasesEntries`: the tail, the positions 0 and 2 of three, the first beyond the tail, the size itself; and on
a full ring the tail and every other position. -/
theorem witness_CqHeadReleasesEntries :
    (cqAt 3).writer.ring.sound ∧ (cqAt 16).writer.ring.sound ∧ (1 = (cqAt 3).writer.ring.tail ∧ 1 < 16) ∧
    (0 < (cqAt 3).writer.ring.unreleased ∧ 14 = (14 + 0) % 16) ∧
    (2 < (cqAt 3).writer.ring.unreleased ∧ (cqAt 3).writer.ring.unreleased < 16 ∧ 0 = (14 + 2) % 16) ∧
    (2 ≠ (cqAt 3).writer.ring.tail ∧ ∀ k : Nat, k ≤ 3 → 2 ≠ (14 + k) % 16) ∧
    ((cqAt 3).writer.ring.size ≤ ((16#32).extractLsb' 0 16).toNat) ∧
    (14 = (cqAt 16).writer.ring.tail ∧ 15 ≠ (cqAt 16).writer.ring.tail ∧
      (cqAt 16).writer.ring.unreleased = (cqAt 16).writer.ring.size) := by
  unfold CompletionRing.sound
  decide

/-- `RegisterWritesTakeEffect`: SUBMIT with the last index of ring 0, the first bad one, ring 3 unused, ring 4, and in
ENABLING ring 3 and ring 4; a short write, both LANE_STATE words, an offset that is not listed. -/
theorem witness_RegisterWritesTakeEffect :
    (at' .off).ctl.device ≠ .enabling ∧ (at' .enabling).ctl.device = .enabling ∧
    ((0x00000003#32).extractLsb' 16 8).toNat = 0 ∧ ((0x00000003#32).extractLsb' 0 16).toNat < ((at' .off).ring 0).size ∧
    ((at' .off).ring 0).size ≤ ((0x00000004#32).extractLsb' 0 16).toNat ∧
    ((0x00030000#32).extractLsb' 16 8).toNat = 3 ∧
    ((at' .off).ring 3).size ≤ ((0x00030000#32).extractLsb' 0 16).toNat ∧
    4 ≤ ((0x00040000#32).extractLsb' 16 8).toNat ∧
    16 < 32 ∧ (0x1C : Nat) ∉ [0x00, 0x04, 0x08, 0x0C, 0x10, 0x14, 0x18] := by decide +kernel

/-- The configuration block read is in flight. -/
def enabling (kept : Bool) : State :=
  { at' .enabling with ctl :=
    { (at' .enabling).ctl with
      configRead := some 0x40, keptHalt := kept, keptSubmit := #v[some 3, some 4, none, none] } }

/-- `ConfigBlockCheckedAndRefused`: a threshold of 65 breaks its condition, one of 64 does not; the writer between
transactions and with its stage 2 still to begin. -/
theorem witness_ConfigBlockCheckedAndRefused :
    (block 4 65).length = 64 ∧ (parseConfig (block 4 65)).accepted = false ∧
    (parseConfig (block 4 64)).accepted = true ∧ (parseConfig (block 0 1)).accepted = false ∧
    (enabling true).ctl.device = .enabling ∧ (enabling true).ctl.configRead.isSome = true ∧
    (enabling true).writer.txn ≠ some (.results []) ∧
    ((enabling true).setTxn (some (.results []))).writer.txn = some (.results []) ∧
    (((enabling true).setTxn (some (.results []))).pushHolding (.job 0)).writer.holding = .job 0 :: [] := by
  decide +kernel

/-- `ConfigAcceptedComesIntoForce`: without a kept HALT, and with one on a drained part and on one that is not. -/
theorem witness_ConfigAcceptedComesIntoForce :
    (block 4 1).length = 64 ∧ (parseConfig (block 4 1)).accepted = true ∧
    (enabling false).ctl.keptHalt = false ∧ (enabling true).ctl.keptHalt = true ∧ (enabling true).drained ∧
    ¬ ((enabling true).setSlot 0 (some (job .program .active))).drained := by
  refine ⟨by decide +kernel, by decide +kernel, rfl, rfl, drained_at .enabling, ?_⟩
  rintro ⟨h, -, -⟩
  have := h 0
  simp [State.slot, State.setSlot] at this

/-- The writer has a result record write of lane 0 in flight, or its completion record write. -/
def writing (d : DeviceState) (t : Transaction) : State := ((at' d).setTxn (some t)).pushHolding (.job 0)

/-- A result record write. -/
def resultWrite (i : LaneId) : ResultWrite := { lane := i, out := { addr := 0x2000, bytes := [] } }

/-- `TransfersFailOrComeLate`: each of its four transfers, in FAULT and out of it; no record read in hand. -/
theorem witness_TransfersFailOrComeLate :
    (enabling true).ctl.configRead.isSome = true ∧ (reading (at' .running)).intake.engine = .recordRead 0 0x1000 ∧
    (reading (at' .fault)).ctl.device = .fault ∧
    (writing .running (.results [resultWrite 0])).writer.txn = some (.results [resultWrite 0]) ∧
    (∃ w ∈ [resultWrite 0], w.lane = 0) ∧ (writing .fault (.results [resultWrite 0])).ctl.device = .fault ∧
    (writing .running (.completion { addr := 0, bytes := [] })).writer.holding = .job 0 :: [] ∧
    (writing .fault (.completion { addr := 0, bytes := [] })).writer.holding = .job 0 :: [] ∧
    (ready .none).readback = none ∧ (landing (.readbackWrite 0)).step = .readbackWrite 0 ∧
    ∀ (g : RingId) (a : BitVec 64), (at' .running).intake.engine ≠ .recordRead g a := by
  refine ⟨rfl, rfl, rfl, rfl, ⟨_, List.mem_singleton.2 rfl, rfl⟩, rfl, rfl, rfl, rfl, rfl, fun _ _ h => nomatch h⟩

/-! ### Witnesses: intake -/

/-- RUNNING with ring 0 eligible and the arbiter at ring `p`; `held` is its held entry. -/
def choosing (p : RingId) (held : Option JobSpec) : State :=
  { at' .running with intake :=
    { rings := Intake.reset.rings.set 0 { Ring.reset with base := 0x1000, size := 4, producer := 1, held := held }
      arbiter := p
      engine := .free } }

/-- Every slot holds a job of ring 1, none in INTAKE. -/
def full (s : State) : State :=
  { s with slots := Vector.replicate 32 (some { job .program .active with ring := 1 }) }

/-- Lane 0's queue is full. -/
def queueFull (s : State) : State := s.setLane 0 { ready .none with queue := [1, 2, 3, 4] }

theorem lowest_free_zero {s : State} (h : s.slot 0 = none) : s.lowestFree 0 :=
  ⟨h, fun m hm => absurd hm (by simp)⟩

theorem full_slots (s : State) (n : SlotId) : (full s).slot n ≠ none := by simp [full, State.slot]

/-- A record that is taken from ring 0 while no slot is in use. -/
theorem taken {s : State} {bytes : List Byte} {j : JobSpec} (he : s.intake.engine = .recordRead 0 0x1000)
    (hd : s.ctl.device ≠ .fault) (hl : bytes.length = 64) (hv : validate bytes = .ok j)
    (hs : s.slots = Vector.replicate 32 none) : s.recordTaken 0 bytes j :=
  ⟨⟨_, he⟩, hd, hl, hv, fun n k h => absurd h (noJob hs n k)⟩

/-- A record that is taken from ring 0 while slot 0 alone is in use, by a job with another tag. -/
theorem taken_beside {s : State} {bytes : List Byte} {j : JobSpec} {k : Job}
    (he : s.intake.engine = .recordRead 0 0x1000) (hd : s.ctl.device ≠ .fault) (hl : bytes.length = 64)
    (hv : validate bytes = .ok j) (hs : s.slots = (Vector.replicate 32 none).set 0 (some k))
    (ht : k.spec.tag ≠ j.tag) : s.recordTaken 0 bytes j := by
  refine ⟨⟨_, he⟩, hd, hl, hv, fun n x h => ?_⟩
  obtain ⟨-, rfl⟩ := oneJob hs h
  exact fun hx => ht hx.2

/-- A PROGRAM's record is taken. -/
theorem program_taken {s : State} (he : s.intake.engine = .recordRead 0 0x1000) (hd : s.ctl.device ≠ .fault)
    (hs : s.slots = Vector.replicate 32 none) : s.recordTaken 0 (record 4 1 0 0x1000 1 0x2000 []) (spec .program) :=
  taken he hd (by decide +kernel) (by decide +kernel) hs

/-- `ArbiterChoosesOrExaminesAgain`: the ring next after the pointer and the last one looked at; the three stops; a
held entry, next after the pointer and third after it, with no slot, with no room, and with both; a record like the
held entry, just read. -/
theorem witness_ArbiterChoosesOrExaminesAgain :
    (let s := choosing 3 none;
      s.ctl.device = .running ∧ s.intake.engine = .free ∧ (s.ring (s.intake.arbiter + 1 + 0)).pendingEntries ≠ 0 ∧
      (s.ring (s.intake.arbiter + 1 + 0)).held = none) ∧
    (let s := choosing 0 none;
      s.intake.arbiter + 1 + 3 = 0 ∧ (s.ring 0).pendingEntries ≠ 0 ∧
      ∀ m : Fin 4, m < 3 → (s.ring (s.intake.arbiter + 1 + m)).pendingEntries = 0) ∧
    (at' .halted).ctl.device ≠ .running ∧ (reading (choosing 3 none)).intake.engine ≠ .free ∧
    (∀ r : RingId, ((at' .running).ring r).pendingEntries = 0) ∧
    (let s := choosing 3 (some (spec .program));
      (s.ring (s.intake.arbiter + 1)).held = some (spec .program) ∧ s.slot 0 = none ∧
      (∀ i : LaneId, inSet (spec .program).lanes i = true → s.placesTaken i < 4) ∧
      inSet (spec .program).lanes 0 = true ∧ 4 ≤ (queueFull s).placesTaken 0) ∧
    (let s := choosing 1 (some (spec .program));
      (s.ring (s.intake.arbiter + 1 + 2)).held = some (spec .program) ∧
      (∀ m : Fin 4, m < 2 → (s.ring (s.intake.arbiter + 1 + m)).pendingEntries = 0) ∧
      State.recordTaken { s with intake :=
        { rings := s.intake.rings.set 0 { s.ring 0 with held := none, inIntake := true }
          arbiter := 0
          engine := .recordRead 0 0x1000 } } 0 (record 4 1 0 0x1000 1 0x2000 []) (spec .program)) := by
  refine ⟨by decide +kernel, by decide +kernel, by decide +kernel, by decide +kernel, by decide +kernel,
    by decide +kernel, rfl, by decide +kernel, program_taken rfl (by decide) rfl⟩

/-- `RecordValidationOrder`: a record that each check refuses first, and one of each kind that passes all. -/
theorem witness_RecordValidationOrder :
    (record 4 1 0 0x1000 1 0x2000 []).length = 64 ∧ validate (record 4 1 0 0x1000 1 0x2000 []) = .ok (spec .program) ∧
    validate (record 0 0 0 1 17 1 []) = .error .badKind ∧ validate (record 12 0 0 1 17 1 []) = .error .badKind ∧
    validate (record 4 0 0 1 17 1 []) = .error .badLanes ∧ validate (record 8 1 0 1 17 1 []) = .error .badLanes ∧
    validate (record 4 1 0 1 17 1 []) = .error .badCount ∧ validate (record 4 1 0 1 0 1 []) = .error .badCount ∧
    validate (record 7 1 0 0 0 1 [3]) = .error .badParam ∧ validate (record 4 1 0 4 1 0 []) = .error .badAlign ∧
    validate (record 7 1 0 0 0 8 [2]) = .error .badAlign ∧
    validate (record 1 1 0 0 0 0x2000 attachFields) = .ok (bare (.attach attach)) ∧
    validate (record 2 1 0 0 0 0x2000 (leBytes 4 0x08000100)) = .ok (bare (.detach 0x08000100)) ∧
    validate (record 6 1 0 0 0 0x2000 (leBytes 4 0x100 ++ leBytes 4 200 ++ leBytes 8 0x8000 ++ leBytes 4 256)) =
      .ok (bare (.readback 0x100 200 0x8000 256)) ∧
    validate (record 7 1 0 0 0 0x2000 [2]) = .ok (bare (.protect 2)) ∧
    validate (record 8 0 0 0 0 0 []) = .ok (nolane .barrier) ∧
    validate (record 10 0 0 0 0 0 [3]) = .ok (nolane (.clearCredential (some 3))) ∧
    validate (record 11 0 0 0 0 0 (leBytes 2 2 ++ leBytes 2 9)) = .ok (nolane (.abort 2 9)) := by decide +kernel

/-- `RefusedRecordCompletesAtIntake`: a bad kind and a duplicate tag, with the holding queue open and not. -/
theorem witness_RefusedRecordCompletesAtIntake :
    let s := reading (work .running (ready .none) (job .program .active))
    let t := s.joinWait (.job 0)
    s.intake.engine = .recordRead 0 0x1000 ∧ s.ctl.device ≠ .fault ∧
    validate (record 0 0 0 0 0 0 []) = .error .badKind ∧
    (validate (record 5 1 0 0x1000 1 0x2000 []) = .ok (spec .verify) ∧
      s.slot 0 = some (job .program .active) ∧ (job .program .active).ring = 0 ∧
      (job .program .active).spec.tag = (spec .verify).tag) ∧
    s.holdingOpen ∧ ¬ t.holdingOpen ∧ .engine ∉ t.writer.waitList := by
  unfold State.holdingOpen
  decide +kernel

/-- A job of ring 0 with tag 9. -/
def older (p : Params) (state : SlotState) : Job := { job p state with spec := { spec p with tag := 9 } }

/-- `RecordsAreClaimedOrHeld`: a job with a list on an idle part, with no slot FREE, with lane 0's queue full; a BARRIER
with no job of its ring in a slot and with one; a PROTECT on a lane that has a job. -/
theorem witness_RecordsAreClaimedOrHeld :
    let s := reading (at' .running)
    let t := reading (work .running (ready .none) (older .program .active))
    s.recordTaken 0 (record 4 1 0 0x1000 1 0x2000 []) (spec .program) ∧ s.lowestFree 0 ∧
    (∀ i : LaneId, inSet (spec .program).lanes i = true → s.placesTaken i < 4) ∧
    ((full s).recordTaken 0 (record 4 1 0 0x1000 1 0x2000 []) (spec .program) ∧
      ∀ n : SlotId, (full s).slot n ≠ none) ∧
    ((queueFull s).recordTaken 0 (record 4 1 0 0x1000 1 0x2000 []) (spec .program) ∧
      (queueFull s).slot 0 = none ∧ inSet (spec .program).lanes 0 = true ∧ 4 ≤ (queueFull s).placesTaken 0) ∧
    (s.recordTaken 0 (record 8 0 0 0 0 0 []) (nolane .barrier) ∧ s.holdingOpen ∧
      ∀ (n : SlotId) (k : Job), s.slot n ≠ some k) ∧
    (t.recordTaken 0 (record 8 0 0 0 0 0 []) (nolane .barrier) ∧ t.lowestFree 1 ∧
      t.slot 0 = some (older .program .active) ∧ (older .program .active).ring = 0 ∧
      ∀ i : LaneId, inSet (nolane .barrier).lanes i = false) ∧
    (t.recordTaken 0 (record 7 1 0 0 0 0x2000 [1]) (bare (.protect 1)) ∧
      ∀ i : LaneId, inSet (bare (.protect 1)).lanes i = true → (t.lane i).queue ≠ [] ∧ t.placesTaken i < 4) := by
  refine ⟨program_taken rfl (by decide) rfl, lowest_free_zero rfl, by decide +kernel,
    ⟨⟨⟨_, rfl⟩, by decide, by decide +kernel, by decide +kernel, ?_⟩, full_slots _⟩,
    ⟨program_taken rfl (by decide) rfl, rfl, by decide, by decide +kernel⟩,
    ⟨taken rfl (by decide) (by decide +kernel) (by decide +kernel) rfl, ⟨by decide, rfl, by decide⟩, noJob rfl⟩,
    ⟨taken_beside rfl (by decide) (by decide +kernel) (by decide +kernel) rfl (by decide +kernel),
      ⟨rfl, ?_⟩, rfl, rfl, by decide +kernel⟩,
    taken_beside rfl (by decide) (by decide +kernel) (by decide +kernel) rfl (by decide +kernel), by decide +kernel⟩
  · intro n k h
    have : k.ring = 1 := by
      simp [full, State.slot] at h
      rw [← h]
    simp [this]
  · intro m hm
    obtain rfl : m = 0 := by
      ext
      have := Fin.lt_def.1 hm
      simp at this ⊢
      omega
    simp [reading, work, State.slot, State.setSlot, State.setEngine]

/-- Entry 2 holds 4 bytes and `pins` lanes pin it. -/
def withCred (s : State) (pins : Nat) : State :=
  s.modCred 2 (fun _ =>
    { valid := true, cls := 0x1234, mask := 0xFFFF, length := 4, bytes := [1, 2, 3, 4] ++ List.replicate 28 0
      pins := pins })

/-- `ClearCredentialTable`: one entry and ALL, not pinned and pinned. -/
theorem witness_ClearCredentialTable :
    let s := withCred (reading (at' .running)) 0
    let p := withCred (reading (at' .running)) 1
    s.recordTaken 0 (record 10 0 0 0 0 0 [2]) (nolane (.clearCredential (some 2))) ∧
    s.recordTaken 0 (record 10 0 0 0 0 0 [0xFF]) (nolane (.clearCredential none)) ∧
    (∀ k : CredId, (s.cred k).pins = 0) ∧
    p.recordTaken 0 (record 10 0 0 0 0 0 [2]) (nolane (.clearCredential (some 2))) ∧
    p.recordTaken 0 (record 10 0 0 0 0 0 [0xFF]) (nolane (.clearCredential none)) ∧
    (p.cred 2).pins ≠ 0 ∧ .engine ∉ s.writer.waitList ∧ .engine ∉ p.writer.waitList := by
  refine ⟨taken rfl (by decide) ?_ ?_ rfl, taken rfl (by decide) ?_ ?_ rfl, ?_, taken rfl (by decide) ?_ ?_ rfl,
    taken rfl (by decide) ?_ ?_ rfl, ?_, ?_, ?_⟩ <;> decide +kernel

/-- A LOAD_CREDENTIAL of 4 bytes into entry 2. -/
def loadSpec : JobSpec := { nolane (.loadCredential 2 4 0x1234 0xFFFF) with listAddr := 0x1000, listCount := 1 }

/-- `LoadCredentialReadEndTable`: the record read; the bytes read's end with the entry not pinned, pinned, in FAULT. -/
theorem witness_LoadCredentialReadEndTable :
    (reading (at' .running)).recordTaken 0 (record 9 0 0 0x1000 1 0 [2, 4, 0x34, 0x12, 0xFF, 0xFF]) loadSpec ∧
    (let s := (withCred (at' .running) 0).setEngine (.credentialRead 0 loadSpec);
      s.intake.engine = .credentialRead 0 loadSpec ∧ loadSpec.params = .loadCredential 2 4 0x1234 0xFFFF ∧
      [1, 2, 3, 4].length = 4 ∧ s.ctl.device ≠ .fault ∧ (s.cred 2).pins = 0 ∧ .engine ∉ s.writer.waitList) ∧
    ((withCred (at' .running) 1).cred 2).pins ≠ 0 ∧
    ((at' .fault).setEngine (.credentialRead 0 loadSpec)).ctl.device = .fault := by
  refine ⟨taken rfl (by decide) ?_ ?_ rfl, ?_, ?_, ?_⟩ <;> decide +kernel

/-- A list of one entry of this length at this target address, with HAS_CRC. -/
def listBytes (target length : Nat) : List Byte :=
  leBytes 8 0x4000 ++ leBytes 4 target ++ leBytes 4 length ++ leBytes 4 0x11 ++ [1, 0, 0, 0]

/-- A job in INTAKE whose list read is in flight. -/
def listing (abort : Bool) : Job := { newJob 0 (spec .verify) with abortMark := abort }

/-- `ListReadEndPlacesOrCompletes`: FAULT; aborted; failed or with an empty segment, the holding queue open and not; good
behind another job. -/
theorem witness_ListReadEndPlacesOrCompletes :
    let s := work .running (ready .none) (listing false)
    s.slot 0 = some (listing false) ∧ (listBytes 0x100 256).length = 24 * (listing false).spec.listCount ∧
    (work .fault (ready .none) (listing false)).ctl.device = .fault ∧
    ((listing true).abortMark = true ∧ (listing true).state = .intake ∧ (listing true).listRead = true) ∧
    ((listing false).abortMark = false ∧ s.holdingOpen ∧
      listFault true 0 (parseList 1 (listBytes 0x100 0)) = some .badCount) ∧
    (listFault true 0 (parseList 1 (listBytes 0x100 256)) = none ∧ (listing false).spec.params = .verify ∧
      ∀ i : LaneId, inSet (listing false).spec.lanes i = true → (s.lane i).queue ≠ []) ∧
    (let u := s.joinWait (.job 3);
      u.slot 0 = some (listing false) ∧ u.ctl.device ≠ .fault ∧ ¬ u.holdingOpen ∧
      .intakeJob 0 ∉ u.writer.waitList ∧ .intakeJob 0 ∈ (u.joinWait (.intakeJob 0)).writer.waitList) := by
  unfold State.holdingOpen
  decide +kernel

/-! ### Witnesses: placement and aborts -/

theorem attach_taken {s : State} (he : s.intake.engine = .recordRead 0 0x1000) (hd : s.ctl.device ≠ .fault)
    (hs : s.slots = Vector.replicate 32 none) :
    s.recordTaken 0 (record 1 1 0 0 0 0x2000 attachFields) (bare (.attach attach)) :=
  taken he hd (by decide +kernel) (by decide +kernel) hs

/-- `AttachIsTakenUpOnIdleLanes`: an idle lane with its switch off, and one RELEASED with its switch on; and lanes 0 and
1, of which lane 1 has a job. -/
theorem witness_AttachIsTakenUpOnIdleLanes :
    let s := reading (at' .running)
    let t := s.setLane 0 { ready .none with state := .released, modePin := false, identity := none, queue := [] }
    let u := s.setLane 1 { ready .none with queue := [5] }
    let both : JobSpec := { bare (.attach attach) with lanes := 3 }
    (s.recordTaken 0 (record 1 1 0 0 0 0x2000 attachFields) (bare (.attach attach)) ∧ s.lowestFree 0 ∧
      inSet (bare (.attach attach)).lanes 0 = true ∧ (s.lane 0).queue = [] ∧
      (∀ i : LaneId, s.placesTaken i < 4) ∧ (s.lane 0).power = false) ∧
    (t.recordTaken 0 (record 1 1 0 0 0 0x2000 attachFields) (bare (.attach attach)) ∧ t.lowestFree 0 ∧
      (t.lane 0).queue = [] ∧ (∀ i : LaneId, t.placesTaken i < 4) ∧ (t.lane 0).power = true) ∧
    (u.recordTaken 0 (record 1 3 0 0 0 0x2000 attachFields) both ∧ u.lowestFree 0 ∧
      (inSet both.lanes 0 = true ∧ (u.lane 0).queue = []) ∧ (inSet both.lanes 1 = true ∧ (u.lane 1).queue ≠ []) ∧
      inSet both.lanes 2 = false ∧ ∀ i : LaneId, u.placesTaken i < 4) := by
  refine ⟨⟨attach_taken rfl (by decide) rfl, lowest_free_zero rfl, ?_⟩, ⟨attach_taken rfl (by decide) rfl,
    lowest_free_zero rfl, ?_⟩, taken rfl (by decide) ?_ ?_ rfl, lowest_free_zero rfl, ?_⟩ <;> decide +kernel

/-- `PreChecksInOrder`: each verdict, with the values on either side of it. Flash runs from 0 to 0x100000, sectors are
0x1000 bytes and the granule is 8. -/
theorem witness_PreChecksInOrder :
    let img := fun list : List Segment => { job .program .active with list := list }
    let region := fun list : List Segment => { job .erase .active with list := list }
    let guarded := fun l : Byte => { ident with level := l }
    let verdict := fun (o : LaneOutcome) (a : Option (BitVec 32)) =>
      some ({ outcome := o, nak := none, kind := none, addr := a } : Verdict)
    preCheck ident false (img [{ seg with target := 0xFFFFFFFF }]) = verdict .notUnlocked none ∧
    preCheck (guarded 1) true (img [seg]) = verdict .guarded none ∧
    preCheck (guarded 1) true (job (.protect 2) .active) = none ∧
    preCheck (guarded 2) true (job (.protect 2) .active) = verdict .guarded none ∧
    preCheck ident true (img [seg, { seg with target := 0xFFF00, length := 257 }]) = verdict .range (some 0xFFF00) ∧
    preCheck ident true (img [seg, { seg with target := 0xFFF00 }]) = none ∧
    preCheck ident true (img [seg, { seg with target := 0x204, length := 4 }]) = verdict .align (some 0x204) ∧
    preCheck ident true (region [{ seg with target := 0x1000, length := 0x1000 }]) = none ∧
    preCheck ident true (region [seg]) = verdict .align (some 0x100) ∧
    preCheck ident true (job (.readback 0xFFFFF 1 0x8000 256) .active) = none ∧
    preCheck ident true (job (.readback 0xFFFFF 2 0x8000 256) .active) = verdict .range (some 0xFFFFF) := by
  decide +kernel

/-- Lane 0 is READY in a session and unlocked, with no job. -/
def open' : Lane := { ready .none with queue := [], unlocked := true }

/-- A job in INTAKE with its list read in flight, for lane 0 with these flags. -/
def listingOf (p : Params) (flags : BitVec 16) : Job := newJob 0 { spec p with flags := flags }

/-- The job of `listingOf` with its list read. -/
def listedOf (p : Params) (flags : BitVec 16) (bytes : List Byte) : Job :=
  { listingOf p flags with list := parseList 1 bytes, listRead := false }

/-- A part with this lane 0 on which a job's list read is in flight. -/
def placing (l : Lane) (p : Params) (flags : BitVec 16) : State := work .running l (listingOf p flags)

/-- A good list read places the job of `listedOf`. -/
theorem list_places (l : Lane) (p : Params) (flags : BitVec 16) (bytes : List Byte)
    (hp : p = .program ∨ p = .verify ∨ p = .erase) (hb : bytes.length = 24)
    (hf : listFault (p.kind == .verify) 0 (parseList 1 bytes) = none) :
    (placing l p flags).places (.listReadEnd .live 0 (.good bytes)) 0 (listedOf p flags bytes) := by
  refine ⟨by rcases hp with rfl | rfl | rfl <;> rfl, .inr ⟨bytes, listingOf p flags, rfl, rfl, by rw [hb]; rfl, ?_, rfl, ?_,
    rfl, rfl, rfl, hf, rfl⟩⟩
  · simp [placing, work, at', State.setSlot, State.setLane]
  · rcases hp with rfl | rfl | rfl <;> rfl

/-- A good record of a job without a list places it. -/
theorem record_places (l : Lane) (bytes : List Byte) (j : JobSpec) (h : j.params.kind.hasLanes = true)
    (hl : bytes.length = 64) (hv : validate bytes = .ok j) (hn : j.hasList = false) (hi : j.lanes = laneBit 0)
    (hq : l.queue = []) :
    (reading ((at' .running).setLane 0 l)).places (.recordReadEnd .live (.good bytes)) 0 (newJob 0 j) := by
  refine ⟨h, .inl ⟨0, bytes, rfl, taken rfl ?_ hl hv rfl, lowest_free_zero rfl, ?_, hn, rfl⟩⟩
  · simp [reading, at', State.setEngine, State.setLane]
  · intro i hx
    obtain rfl : i = 0 := by
      have : ∀ i : LaneId, inSet (laneBit 0) i = true → i = 0 := by decide
      exact this i (hi ▸ hx)
    have hz : (reading ((at' .running).setLane 0 l)).placesTaken 0
        = l.queue.length + (reading ((at' .running).setLane 0 Lane.reset)).placesTaken 0 := by
      simp [State.placesTaken, reading, State.lane, State.setLane, State.setEngine, State.slot, Lane.reset]
    rw [hz, hq]
    decide +kernel

/-- `JobsAreTakenUpOnAnIdleLane`: both ways to be placed; the lane states in which a job ends at once; pre-checks that
fail and that pass; a request of each kind. -/
theorem witness_JobsAreTakenUpOnAnIdleLane :
    (placing open' .verify 0).places (.listReadEnd .live 0 (.good (listBytes 0x100 256))) 0
      (listedOf .verify 0 (listBytes 0x100 256)) ∧
    (placing open' .program 8).places (.listReadEnd .live 0 (.good (listBytes 0x100 256))) 0
      (listedOf .program 8 (listBytes 0x100 256)) ∧
    (∀ l : Lane, l.queue = [] → (reading ((at' .running).setLane 0 l)).places
      (.recordReadEnd .live (.good (record 7 1 0 0 0 0x2000 [1]))) 0 (newJob 0 (bare (.protect 1)))) ∧
    (∀ l : Lane, l.queue = [] → (reading ((at' .running).setLane 0 l)).places
      (.recordReadEnd .live (.good (record 2 1 2 0 0 0x2000 []))) 0 (newJob 0 { bare (.detach 0) with flags := 2 })) ∧
    (spec .verify).lanes = laneBit 0 ∧ (placing open' .verify 0).mayRequest 0 ∧
    ((placing { open' with readback := some payloadOut } .verify 0).lane 0).readback ≠ none ∧
    open'.state = .ready ∧ open'.identity = some ident ∧
    preCheck ident true (listedOf .verify 0 (listBytes 0x100 256)) = none ∧
    preCheck ident true (listedOf .program 8 (listBytes 0x100 256)) = none ∧
    preCheck ident true (listedOf .erase 0 (listBytes 0x1000 0x2000)) = none ∧
    preCheck ident true (newJob 0 (bare (.protect 1))) = none ∧
    preCheck ident false (newJob 0 (bare (.protect 1))) ≠ none ∧
    (listedOf .program 8 []).spec.flags.getLsbD 3 = true ∧ (listedOf .program 0 []).spec.flags.getLsbD 3 = false ∧
    ∀ (b : BlockId) (x : Block), (placing open' .program 8).pool.block b ≠ some x := by
  refine ⟨list_places _ _ _ _ (by decide) (by decide +kernel) (by decide +kernel),
    list_places _ _ _ _ (by decide) (by decide +kernel) (by decide +kernel),
    fun l h => record_places l _ _ rfl (by decide +kernel) (by decide +kernel) rfl (by decide) h,
    fun l h => record_places l _ _ rfl (by decide +kernel) (by decide +kernel) rfl (by decide) h, by decide, ?_, ?_⟩
  · unfold State.mayRequest; decide +kernel
  · refine ⟨by decide +kernel, rfl, rfl, by decide +kernel, by decide +kernel, by decide +kernel, by decide +kernel, by decide +kernel,
      by decide, by decide, ?_⟩
    intro b x h
    simp [placing, work, at', State.reset, Pool.reset, Pool.block, State.setSlot, State.setLane] at h

/-- `DetachPowersTheLaneDown`: a lane READY with no job, its switch on. -/
theorem witness_DetachPowersTheLaneDown :
    let s := (reading (at' .running)).setLane 0 { ready .none with queue := [] }
    s.recordTaken 0 (record 2 1 0 0 0 0x2000 []) (bare (.detach 0)) ∧ s.lowestFree 0 ∧
      (bare (.detach 0)).flags.getLsbD 1 = false ∧ (bare (.detach 0)).lanes = laneBit 0 ∧
      (s.lane 0).queue = [] ∧ s.placesTaken 0 < 4 := by
  refine ⟨taken rfl (by decide) ?_ ?_ rfl, lowest_free_zero rfl, ?_⟩ <;> decide +kernel

/-- An ABORT of ring 0, tag 9, from ring 1's record with tag 7. -/
def abortRecord : List Byte := record 11 0 0 0 0 0 [0, 0, 9]

/-- The record read of ring 1 is in flight, and slot 0 holds a job with tag 9. -/
def aborting (l : Lane) (p : Params) (state : SlotState) (listRead : Bool) : State :=
  (work .running l
    { job p state with spec := { spec p with tag := 9 }, listRead := listRead }).setEngine (.recordRead 1 0)

theorem abort_taken (l : Lane) (p : Params) (state : SlotState) (b : Bool) :
    (aborting l p state b).recordTaken 1 abortRecord (nolane (.abort 0 9)) := by
  refine ⟨⟨_, rfl⟩, by simp [aborting, work, at', State.setEngine, State.setSlot, State.setLane], by decide +kernel,
    by decide +kernel, ?_⟩
  intro n k h
  obtain ⟨-, rfl⟩ := oneJob rfl h
  simp [job, newJob]

theorem abort_open (l : Lane) (p : Params) (state : SlotState) (b : Bool) : (aborting l p state b).holdingOpen :=
  ⟨by simp [aborting, work, at', State.setEngine, State.setSlot, State.setLane], rfl,
    by simp [aborting, work, at', State.setEngine, State.setSlot, State.setLane, Writer.reset]⟩

/-- `AbortLookupEffects`: nothing found, a RETIRING job, an INTAKE job with its list read in flight; an ACTIVE job on
lane 0 with a request outstanding, with none, and an ATTACH before identity. -/
theorem witness_AbortLookupEffects :
    ((reading (at' .running)).recordTaken 0 abortRecord (nolane (.abort 0 9)) ∧ (reading (at' .running)).holdingOpen ∧
      ∀ (n : SlotId) (k : Job), (reading (at' .running)).slot n ≠ some k) ∧
    (∀ (l : Lane) (p : Params) (st : SlotState) (b : Bool),
      (aborting l p st b).recordTaken 1 abortRecord (nolane (.abort 0 9)) ∧ (aborting l p st b).holdingOpen ∧
      (∃ k : Job, (aborting l p st b).slot 0 = some k ∧ k.ring = 0 ∧ k.spec.tag = 9 ∧ k.state = st ∧
        k.listRead = b ∧ k.spec.lanes = laneBit 0 ∧ k.results[0] = none ∧ k.spec.params = p) ∧
      ∀ (m : SlotId) (x : Job), (aborting l p st b).slot m = some x → m = 0) ∧
    ((busy .protect .protect [1]).outstanding.isSome = true ∧ (busy .protect .protect [1]).queue = [0]) ∧
    ((ready (.programWrite 0)).outstanding = none ∧ (ready (.programWrite 0)).identity ≠ none) ∧
    (({ ready .attachPhase with state := .training, identity := none } : Lane).identity = none ∧
      (Params.attach attach).kind = .attach) := by
  refine ⟨⟨taken rfl (by decide) (by decide +kernel) (by decide +kernel) rfl, ⟨by decide, rfl, by decide⟩, noJob rfl⟩,
    fun l p st b => ⟨abort_taken l p st b, abort_open l p st b, ⟨_, rfl, rfl, rfl, rfl, rfl, by simp [spec]; decide, ?_, rfl⟩,
      fun m x h => (oneJob rfl h).1⟩, ⟨rfl, rfl⟩, ⟨rfl, by decide⟩, rfl, rfl⟩
  simp [job, newJob]

/-- Three lanes of a job in slot 0: lane 0 with its request outstanding or not, lane 1 with none, lane 2 behind the job
of slot 5. -/
def three (pending : Bool) (k : Job) : State :=
  (((((at' .running).setLane 0 (if pending then busy .protect .protect [1] else ready .protect)).setLane 1
    (ready .protect)).setLane 2 { ready .protect with queue := [5, 0] }).setSlot 0 (some k)).setEngine (.recordRead 1 0)

/-- A job of lanes 0, 1 and 2 with tag 9 in a slot state. -/
def threeJob (state : SlotState) : Job :=
  { newJob 0 { bare (.protect 1) with tag := 9, lanes := 7 } with state := state }

theorem three_taken (b : Bool) (k : Job) (h : k.ring = 0) :
    (three b k).recordTaken 1 abortRecord (nolane (.abort 0 9)) := by
  refine ⟨⟨_, rfl⟩, by simp [three, at', State.setEngine, State.setSlot, State.setLane], by decide +kernel,
    by decide +kernel, ?_⟩
  intro n x hx
  obtain ⟨-, rfl⟩ := oneJob rfl hx
  simp [h]

/-- `AbortsReachEveryLane`: a BARRIER WAITING; a job QUEUED behind others on each lane; one ACTIVE with a lane pending,
and with none. -/
theorem witness_AbortsReachEveryLane :
    (∀ (b : Bool) (k : Job), k.ring = 0 → (three b k).recordTaken 1 abortRecord (nolane (.abort 0 9)) ∧
      (three b k).holdingOpen ∧ (three b k).slot 0 = some k ∧
      ∀ (m : SlotId) (x : Job), (three b k).slot m = some x → m = 0) ∧
    ((threeJob .waiting).state = .waiting ∧ (threeJob .waiting).ring = 0 ∧ (threeJob .waiting).spec.tag = 9) ∧
    (let s := ((three false (threeJob .queued)).setLane 0 { ready .protect with queue := [5, 0] }).setLane 1
        { ready .protect with queue := [5, 0] };
      (threeJob .queued).spec.lanes ≠ 0 ∧ ∀ i : LaneId, inSet (threeJob .queued).spec.lanes i = true →
        (threeJob .queued).results[i.val] = none ∧ (s.lane i).queue.head? ≠ some 0) ∧
    (∀ i : LaneId, inSet (threeJob .active).spec.lanes i = true → ((three true (threeJob .active)).lane i).queue.head? = some 0 →
      ((three true (threeJob .active)).lane i).queue = [0]) ∧
    ((three true (threeJob .active)).lane 0).outstanding.isSome = true ∧
    (∀ i : LaneId, ((three false (threeJob .active)).lane i).outstanding = none) := by
  refine ⟨fun b k h => ⟨three_taken b k h, ⟨by simp [three, at', State.setEngine, State.setSlot, State.setLane], rfl,
    by simp [three, at', State.setEngine, State.setSlot, State.setLane, Writer.reset]⟩, rfl, fun m x hx => (oneJob rfl hx).1⟩,
    ?_⟩
  decide +kernel

/-! ### Witnesses: completions -/

/-- A completion at intake of ring 0. -/
def done : IntakeCompletion := { ring := 0, tag := 7, status := .done, detail := .none, irqNow := false }

/-- A pending lane event. -/
def brown : LaneEvent := { code := .brownout, sample := 2900 }

/-- A lane result. -/
def okResult : LaneResult :=
  { outcome := .ok, nak := none, kind := none, addr := none, sample := 3300, body := .counters 1 0 0 0 }

/-- A RETIRING job with its outcome on lane 0. -/
def retired (resultAddr : BitVec 64) : Job :=
  { job .program .retiring with
    spec := { spec .program with resultAddr := resultAddr }
    results := (Vector.replicate 16 none).set 0 (some okResult)
    final := some { status := .success, okMask := 1, failMask := 0 } }

/-- The record of slot 0 heads the holding queue. -/
def heading (d : DeviceState) (resultAddr : BitVec 64) (t : Option Transaction) : State :=
  ((work d (ready .none) (retired resultAddr)).pushHolding (.job 0)).setTxn t

/-- A job aborted in INTAKE: its masks are empty. -/
def emptied : Job :=
  { retired 0x2000 with
    results := Vector.replicate 16 none, final := some { status := .aborted, okMask := 0, failMask := 0 } }

/-- `TransactionWritesTheHeadRecord`: the stops; a head without and with a result address, and one whose masks are empty;
a write's end that is not the last, that is, that is in ENABLING, and that is of no write in flight. -/
theorem witness_TransactionWritesTheHeadRecord :
    ((at' .running).writer.holding = [] ∧ (heading .running 0 (some (.results []))).writer.txn.isSome = true ∧
      (heading .enabling 0 none).ctl.device = .enabling ∧ (heading .fault 0 none).ctl.device = .fault) ∧
    (let s := heading .running 0 none;
      s.writer.holding = .job 0 :: [] ∧ s.writer.txn = none ∧ s.writer.ring.unreleased < s.writer.ring.size ∧
      s.ctl.device ≠ .enabling ∧ s.ctl.device ≠ .fault ∧ s.slot 0 = some (retired 0) ∧
      (retired 0).spec.resultAddr = 0) ∧
    ((heading .running 0x2000 none).slot 0 = some (retired 0x2000) ∧ (retired 0x2000).spec.resultAddr ≠ 0 ∧
      (retired 0x2000).final = some { status := .success, okMask := 1, failMask := 0 } ∧
      (1#16 ||| 0#16) = (retired 0x2000).spec.lanes ∧ (retired 0x2000).spec.lanes ≠ 0 ∧
      ∀ i : LaneId, inSet (retired 0x2000).spec.lanes i = true → (retired 0x2000).results[i.val] ≠ none) ∧
    (((heading .running 0x2000 none).setSlot 0 (some emptied)).slot 0 = some emptied ∧ emptied.spec.resultAddr ≠ 0 ∧
      emptied.final = some { status := .aborted, okMask := 0, failMask := 0 } ∧ (0#16 ||| 0#16) = 0) ∧
    ((heading .running 0x2000 (some (.results [resultWrite 0, resultWrite 1]))).writer.txn =
        some (.results [resultWrite 0, resultWrite 1]) ∧
      (∃ w ∈ [resultWrite 0, resultWrite 1], w.lane = 0) ∧ (∃ w ∈ [resultWrite 0, resultWrite 1], w.lane ≠ 0)) ∧
    ((∃ w ∈ [resultWrite 0], w.lane = 0) ∧ (∀ w ∈ [resultWrite 0], w.lane = 0) ∧
      (∀ w ∈ [resultWrite 1], w.lane ≠ 0)) ∧
    (heading .enabling 0x2000 (some (.results [resultWrite 0]))).writer.holding = .job 0 :: [] := by decide +kernel

/-- A job in INTAKE in slot 0 whose list read has failed waits for a place. -/
def failedList (d : DeviceState) : State :=
  (work d (ready .none) { listing false with listRead := false, intakeEnd := some (.hostError, .none) }).joinWait (.intakeJob 0)

/-- `RecordsEnterAndLeaveTheHoldingQueue`: nothing waiting, no place, FAULT; a job, the engine, a lane event and a
job in INTAKE at the front;
a record at intake and a lane event whose write ends; a count one below the threshold of 2, and one two below it; the
timer. -/
theorem witness_RecordsEnterAndLeaveTheHoldingQueue :
    (at' .running).writer.waitList = [] ∧
    (8 ≤ ({ at' .running with writer := { Writer.reset with holding := List.replicate 8 (.job 0) } } : State).writer.holding.length) ∧
    (at' .fault).ctl.device = .fault ∧
    ((at' .running).joinWait (.job 0)).writer.waitList = .job 0 :: [] ∧
    ((at' .running).joinWait (.job 0)).writer.holding.length < 8 ∧
    (((at' .running).setEngine (.waiting done)).joinWait .engine).writer.waitList = .engine :: [] ∧
    (((at' .running).setEngine (.waiting done)).joinWait .engine).intake.engine = .waiting done ∧
    ((((at' .running).setLane 0 { ready .none with pendingEvent := some brown }).joinWait (.laneEvent 0)).lane 0).pendingEvent
      = some brown ∧
    ((failedList .running).writer.waitList = .intakeJob 0 :: [] ∧ (failedList .running).ctl.device ≠ .fault ∧
      (failedList .running).writer.holding.length < 8 ∧ (failedList .running).recordFor (.intakeJob 0) = some
        (.intake { ring := 0, tag := 7, status := .hostError, detail := .none, irqNow := false })) ∧
    ∀ h ∈ [HeldRecord.intake done, .event 0 brown],
      let s := (({ at' .running with writer := { (at' .running).writer with count := 1, delayTimer := some 100 } } :
        State).pushHolding h).setTxn (some (.completion { addr := 0, bytes := [] }))
      s.writer.txn = some (.completion { addr := 0, bytes := [] }) ∧ s.writer.holding = h :: [] ∧
      s.writer.waitList = [] ∧ s.ctl.inForce = some settings ∧ s.ctl.device ≠ .quiescing ∧
      settings.threshold ≤ s.writer.count + 1 ∧ ¬ settings.threshold ≤ (at' .running).writer.count + 1 ∧
      settings.delay ≠ 0 ∧ done.irqNow = false ∧ s.writer.delayTimer.isSome = true ∧
      (at' .running).writer.delayTimer = none := by decide +kernel

/-- A BARRIER that waits for these slots. -/
def barrier (wait : List SlotId) : Job :=
  { newJob 0 (nolane .barrier) with state := .waiting, waitSet := wait }

/-- The completion record of this record of the holding queue is being written, with a barrier that waits for slot 0
alone and one that waits for slot 3 as well. -/
def ending (d : DeviceState) (h : HeldRecord) : State :=
  ((((work d (ready .none) (retired 0)).pushHolding h).setTxn (some (.completion { addr := 0, bytes := [] }))).setSlot 1
    (some (barrier [0]))).setSlot 2 (some (barrier [0, 3]))

/-- `RecordWriteEndFreesTheSlot`: a slot job's record, one at intake, a lane event's; nothing waiting, and a job in INTAKE
whose list has failed; a wait set that empties and one that does not; the drain of QUIESCING. -/
theorem witness_RecordWriteEndFreesTheSlot :
    (∀ h ∈ [HeldRecord.job 0, .intake done, .event 0 brown], ∀ d ∈ [DeviceState.running, .quiescing, .halted, .fault],
      (ending d h).writer.txn = some (.completion { addr := 0, bytes := [] }) ∧ (ending d h).writer.holding = h :: [] ∧
      (ending d h).ctl.inForce = some settings ∧ (ending d h).writer.waitList = []) ∧
    (ending .running (.job 0)).lastFreed (fun m => .job 0 == HeldRecord.job m) 1 ∧
    ¬ (ending .running (.job 0)).lastFreed (fun m => .job 0 == HeldRecord.job m) 2 ∧
    (let s := (ending .running (.job 3)).joinWait (.intakeJob 0);
      s.writer.waitList = .intakeJob 0 :: [] ∧ s.writer.txn.isSome = true) ∧
    (after (exec (.completionRecordWriteEnd .live .good) ((heading .quiescing 0 (some (.completion
      { addr := 0, bytes := [] })))))).ctl.device = .halted := by
  refine ⟨by decide +kernel, ⟨barrier [0], by decide +kernel, rfl, by decide, by decide⟩, ?_, by decide +kernel,
    by decide +kernel⟩
  rintro ⟨b, hb, -, -, h⟩
  have e : (ending .running (.job 0)).slot 2 = some (barrier [0, 3]) := by decide +kernel
  rw [e] at hb
  cases hb
  exact absurd (h 3 (by decide)) (by decide)

/-- `JobStatusFromOutcomes`: a job whose only lane has its outcome, and a BARRIER, which has no lane. -/
theorem witness_JobStatusFromOutcomes :
    (∀ i : LaneId, inSet (retired 0).spec.lanes i = true → (retired 0).outcome i ≠ none) ∧
    (∀ i : LaneId, inSet (barrier []).spec.lanes i = true → (barrier []).outcome i ≠ none) := by decide +kernel

/-- `WrittenRecordsHoldTheirFields`: counters and fields at the ends of their ranges; an ATTACH's record with an identity
and without; a job's record and the two others. -/
theorem witness_WrittenRecordsHoldTheirFields :
    (let r : LaneResult := { okResult with sample := 65535, body := .counters (2 ^ 32 - 1) 0 (2 ^ 32 - 1) 0 };
      r.sample < 65536 ∧ r.body = .counters (2 ^ 32 - 1) 0 (2 ^ 32 - 1) 0 ∧ 2 ^ 32 - 1 < 2 ^ 32) ∧
    ({ okResult with body := .attach (some ident) true } : LaneResult).body = .attach (some ident) true ∧
    ({ okResult with body := .attach none false } : LaneResult).body = .attach none false ∧
    (let r : CompletionRecord :=
        { phase := true, kind := 1, ring := 3, status := 13, tag := 65535, detail := 6, word8 := 65535, word10 := 0
          consumer := 1023 };
      r.kind < 256 ∧ r.ring < 256 ∧ r.status < 256 ∧ r.tag < 65536 ∧ r.detail < 256 ∧ r.word8 < 65536 ∧
        r.word10 < 65536 ∧ r.consumer < 65536) ∧
    (heading .running 0 none).slot 0 = some (retired 0) ∧
    (retired 0).final = some { status := .success, okMask := 1, failMask := 0 } := by decide +kernel

/-- An ATTACH's result record on lane 2 with an identity, unlocked and with a credential required (11.2, R168): 0 at the
address, flags 6, sample 3 300, then the identity. -/
theorem test_attach_result_record :
    resultRecord 2 { okResult with body := .attach (some ident) true } =
      [2, 0, 0, 0, 0, 0, 0, 0, 6, 0, 0xE4, 0x0C, 0x34, 0x12, 1, 0, 0, 0, 0, 0, 0, 0, 0x10, 0, 0, 0x10, 0, 0, 8, 128, 5,
        0x11] := by decide +kernel
/-- A refused WRITE's result record on lane 0: TARGET_REFUSED (32), PROGRAM (8), WRITE (4), address 0x180 (11.2). -/
theorem test_refused_result_record :
    (resultRecord 0 { okResult with
      outcome := .targetRefused, nak := some .program, kind := some .write, addr := some 0x180 }).take 12 =
      [0, 32, 8, 4, 0x80, 1, 0, 0, 1, 0, 0xE4, 0x0C] := by decide +kernel

/-! ### Witnesses: the Staging Pool -/

/-- Block 5 carries block 1 of slot 0's segment 0 in a condition, for this reference set. -/
def blockAt (st : BlockState) (refs : BitVec 16) : Block :=
  { slot := 0, segment := 0, index := 1, valid := 4, state := st, refs := refs }

/-- A pool with block 5 in use. -/
def pool (st : BlockState) (refs : BitVec 16) : Pool :=
  { blocks := (Vector.replicate 128 none).set 5 (some (blockAt st refs))
    freeList := allBlocks.filter (· != 5)
    fetchQueue := if st = .waiting then [5] else []
    stale := 0 }

/-- `StagingReadsIssueAndEnd`: a read to issue and none; a read in flight for a lane, for none, and no read in flight; the
last orphan of a RETIRING job, and one of two, not offered yet and offered. -/
theorem witness_StagingReadsIssueAndEnd :
    ((pool .waiting 1).fetchQueue = 5 :: [] ∧ (pool .waiting 1).block 5 = some (blockAt .waiting 1) ∧
      (pool .waiting 1).inFlight + (pool .waiting 1).stale < 16 ∧ (at' .running).ctl.device ≠ .fault) ∧
    ((pool .inFlight 1).fetchQueue = [] ∧ 16 ≤ (pool .waiting 1).inFlight + ({ pool .waiting 1 with stale := 16 } : Pool).stale) ∧
    ((pool .inFlight 1).block 5 = some (blockAt .inFlight 1) ∧ [1, 2, 3, 4].length = (blockAt .inFlight 1).valid ∧
      (blockAt .inFlight 1).refs ≠ 0) ∧
    ((pool .inFlight 0).block 5 = some (blockAt .inFlight 0) ∧ (blockAt .inFlight 0).refs = 0) ∧
    (blockAt .waiting 1).state ≠ .inFlight ∧
    (let s := (work .running open' (retired 0)).setPool (pool .inFlight 0);
      let two := s.setPool (s.pool.setBlock 6 (some (blockAt .inFlight 0)));
      s.pool.block 5 = some (blockAt .inFlight 0) ∧ s.slot 0 = some (retired 0) ∧ (retired 0).state = .retiring ∧
      (∀ i : LaneId, (0 : SlotId) ∉ (s.lane i).queue) ∧
      (∀ a : BlockId, a ≠ 5 → s.pool.block a = none) ∧ two.pool.block 6 = some (blockAt .inFlight 0) ∧
      .job 0 ∉ s.writer.holding ∧ .job 0 ∉ s.writer.waitList ∧ s.holdingOpen ∧ ¬ (s.joinWait (.job 4)).holdingOpen ∧
      .job 0 ∈ (s.joinWait (.job 0)).writer.waitList) := by
  unfold State.holdingOpen
  decide +kernel

/-- A PROGRAM on lane 0 at its write step, with block 5 in a condition. -/
def programming (d : DeviceState) (l : Lane) (j : Job) (st : BlockState) : State :=
  (work d l j).setPool (pool st 1)

/-- `FailedImageReadMarksTheJob`: a lane with no request outstanding, one with a WRITE outstanding, a marked job. -/
theorem witness_FailedImageReadMarksTheJob :
    let j := job .program .active
    let m := { j with imageFailed := some (0, 0) }
    (let s := programming .running (ready (.programWrite 0)) j .inFlight;
      s.pool.block 5 = some (blockAt .inFlight 1) ∧ s.slot 0 = some j ∧ j.spec.lanes = laneBit 0 ∧
      (s.lane 0).queue = [0] ∧ (s.lane 0).step ≠ .none ∧ j.results[0] = none ∧ j.state = .active ∧
      j.list[(blockAt .inFlight 1).segment]? = some seg ∧ j.imageFailed = none ∧ (s.lane 0).outstanding = none) ∧
    ((programming .running (busy (.programWrite 0) .write [0, 0, 1, 0, 9]) j .inFlight).lane 0).outstanding.isSome = true ∧
    ((programming .running (ready (.programWrite 0)) m .inFlight).slot 0 = some m ∧ m.imageFailed.isSome = true) := by
  decide +kernel

theorem block_of_pool {st : BlockState} {refs : BitVec 16} {b : BlockId} {k : Block}
    (h : (pool st refs).block b = some k) : b = 5 ∧ k = blockAt st refs := by
  simp only [pool, Pool.block, Vector.getElem_set, Vector.getElem_replicate] at h
  split at h
  · exact ⟨by ext; simp; omega, by simpa using h.symm⟩
  · cases h

/-- A pool with one block in use, its read waiting, is sound. -/
theorem pool_sound : (pool .waiting 1).sound where
  freeOnce := by decide +kernel
  freeIff := by decide +kernel
  oneKey := fun _ _ _ _ ha hb _ _ _ => (block_of_pool ha).1.trans (block_of_pool hb).1.symm
  queuedOnce := by decide
  queuedIff := by
    intro b
    constructor
    · intro h
      have : b = 5 := by simpa [pool] using h
      exact ⟨blockAt .waiting 1, by subst this; rfl, rfl⟩
    · rintro ⟨k, hk, -⟩
      simp [pool, (block_of_pool hk).1]
  referenced := fun _ k h => .inl (by rw [(block_of_pool h).2]; decide)
  sixteen := by decide +kernel

/-- A pool whose block 5 is READY is sound. -/
theorem pool_ready_sound (data : List Byte) : (pool (.ready data) 1).sound where
  freeOnce := by rw [show (pool (.ready data) 1).freeList = (pool .waiting 1).freeList from rfl]; decide +kernel
  freeIff := by
    intro b
    rw [show (pool (.ready data) 1).freeList = (pool .waiting 1).freeList from rfl, pool_sound.freeIff b]
    simp only [Pool.block, pool, Vector.getElem_set]
    split <;> simp
  oneKey := fun _ _ _ _ ha hb _ _ _ => (block_of_pool ha).1.trans (block_of_pool hb).1.symm
  queuedOnce := by simp [pool]
  queuedIff := by
    intro b
    simp only [pool, reduceCtorEq, if_false, List.not_mem_nil, false_iff]
    rintro ⟨k, hk, hs⟩
    rw [(block_of_pool hk).2] at hs
    simp [blockAt] at hs
  referenced := fun _ k h => .inl (by rw [(block_of_pool h).2]; simp [blockAt])
  sixteen := by
    have : (pool (.ready data) 1).inFlight = 0 := by
      simp only [Pool.inFlight, List.countP_eq_zero]
      intro b _
      cases hb : (pool (.ready data) 1).block b with
      | none => simp only [Pool.block] at hb; rw [hb]; simp
      | some k =>
        have hk := (block_of_pool hb).2
        simp only [Pool.block] at hb
        rw [hb, hk]
        simp [blockAt]
    rw [this]
    exact Nat.zero_le 16

/-- `WindowKeysFollowAndJoin`: a list of two segments and its third key; a pool that has a key and lacks one. -/
theorem witness_WindowKeysFollowAndJoin :
    (∀ e ∈ [seg, seg], 0 < e.length) ∧ (imageKeys [seg, seg])[2]? = some (1, 0) ∧ (pool .waiting 1).sound ∧
    (pool .waiting 1).block 5 = some (blockAt .waiting 1) ∧
    (∀ (a : BlockId) (k : Block), (pool .waiting 1).block a = some k → ¬ (k.slot = 0 ∧ k.segment = 1 ∧ k.index = 0)) ∧
    (∃ rest : List BlockId, (pool .waiting 1).freeList = 0 :: rest) ∧ [seg, seg][1]? = some seg := by
  refine ⟨by decide, by decide, pool_sound, rfl, ?_, ⟨_, rfl⟩, rfl⟩
  intro a k h
  rw [(block_of_pool h).2]
  simp [blockAt]

/-! ### Witnesses: the Supply Monitor -/

/-- Lanes 0 and 3 have these converter requests, the last served lanes were 15 and 3. -/
def requesting (check supervise : Bool) : State :=
  let l : Lane := { ready .none with checkPending := check, supervisePending := supervise, queue := [] }
  { ((at' .running).setLane 0 l).setLane 3 l with supply :=
    { Supply.reset with supervisePtr := 3, timer := some 10 } }

/-- `ConverterIsServedInTurn`: the timer running and not; a CHECK on the first lane looked at; a SUPERVISE on a later
lane while the last lane served has one too; a busy converter, and nothing to take. -/
theorem witness_ConverterIsServedInTurn :
    ((requesting true true).supply.timer = some 10 ∧ (requesting true true).ctl.inForce = some settings ∧
      (at' .running).supply.timer = none) ∧
    (let s := requesting true true;
      s.supply.converter = none ∧ (s.lane (s.supply.checkPtr + 1 + 0)).checkPending = true) ∧
    (let s := requesting false true;
      (∀ i : LaneId, (s.lane i).checkPending = false) ∧ (s.lane (s.supply.supervisePtr + 1 + 12)).supervisePending = true ∧
      ∀ m : Fin 16, m < 12 → (s.lane (s.supply.supervisePtr + 1 + m)).supervisePending = false) ∧
    (({ requesting true true with supply :=
        { Supply.reset with converter := some { lane := 0, cls := .check, void := false } } } : State).supply.converter.isSome
      = true) ∧
    ∀ i : LaneId, ((requesting false false).lane i).checkPending = false ∧
      ((requesting false false).lane i).supervisePending = false := by decide +kernel

/-- The converter works for lane 0. -/
def converting (s : State) (cls : SampleClass) (void : Bool) : State :=
  { s with supply := { Supply.reset with converter := some { lane := 0, cls := cls, void := void } } }

/-- A lane in a phase of the ATTACH of slot 0. -/
def phase (st : LaneState) : Lane :=
  { ready .attachPhase with state := st, identity := none, resetPin := false, modePin := st != .powering }

/-- The ATTACH of slot 0. -/
def attachJob : Job := { newJob 0 (bare (.attach attach)) with state := .active }

/-- `ConversionResultsAreJudged`: a SUPERVISE at and beyond the ends of the window, with a count of 0 and of 1; a void
one; a CHECK inside the window in RUNNING and in FAULT, outside for the second time and the third. -/
theorem witness_ConversionResultsAreJudged :
    (let l : Lane := { ready .none with queue := [] };
      let s := converting ((at' .running).setLane 0 l) .supervise false;
      s.supply.converter = some { lane := 0, cls := .supervise, void := false } ∧
      ((s.lane 0).vmin ≤ (max 0 (min 6000 (3000 : Int))).toNat ∧ (max 0 (min 6000 (3600 : Int))).toNat ≤ (s.lane 0).vmax) ∧
      ¬ (s.lane 0).vmin ≤ (max 0 (min 6000 (2999 : Int))).toNat ∧
      ¬ (max 0 (min 6000 (3601 : Int))).toNat ≤ (s.lane 0).vmax ∧ (s.lane 0).outOfWindow = 0 ∧
      (let u := (converting ((at' .running).setLane 0 { l with outOfWindow := 1 }) .supervise false);
        (u.lane 0).outOfWindow = 1 ∧ (u.lane 0).state ≠ .faulted ∧ (u.lane 0).queue = [] ∧
        u.ctl.device ≠ .fault ∧ u.writer.waitList = [] ∧ u.writer.holding.length < 8) ∧
      (converting (at' .running) .supervise true).supply.converter
        = some { lane := 0, cls := .supervise, void := true }) ∧
    (let s := converting (work .running (phase .powering) attachJob) .check false;
      s.supply.converter = some { lane := 0, cls := .check, void := false } ∧ (s.lane 0).state = .powering ∧
      (s.lane 0).queue = [0] ∧ s.slot 0 = some attachJob ∧ attachJob.spec.params = .attach attach ∧
      (s.lane 0).step = .attachPhase ∧ attachJob.results[0] = none ∧ s.ctl.device ≠ .fault ∧
      ((s.lane 0).vmin ≤ 3000 ∧ 3600 ≤ (s.lane 0).vmax) ∧
      (work .fault (phase .powering) attachJob).ctl.device = .fault ∧
      (¬ (s.lane 0).vmin ≤ (max 0 (min 6000 (-1 : Int))).toNat ∧ ({ phase .powering with checkCount := 1 } : Lane).checkCount < 2) ∧
      ({ phase .powering with checkCount := 2 } : Lane).checkCount = 2) := by decide +kernel

/-- `TripOpensTheSwitch`: the switch off; a FAULTED lane; a lane with a job; one without, the holding queue open and
not. -/
theorem witness_TripOpensTheSwitch :
    ((at' .running).lane 0).power = false ∧
    (let s := work .running { phase .powering with state := .faulted, queue := [] } attachJob;
      (s.lane 0).power = true ∧ (s.lane 0).state = .faulted) ∧
    (let s := work .running (busy .protect .protect [1]) (job (.protect 1) .active);
      (s.lane 0).power = true ∧ (s.lane 0).state ≠ .faulted ∧ (s.lane 0).queue.length ≤ 1 ∧
      s.slot 0 = some (job (.protect 1) .active) ∧ (job (.protect 1) .active).results[0] = none) ∧
    (let s := (at' .running).setLane 0 { ready .none with queue := [] };
      (s.lane 0).queue = [] ∧ s.ctl.device ≠ .fault ∧ s.writer.waitList = [] ∧ s.writer.holding.length < 8) ∧
    ((at' .fault).setLane 0 { ready .none with queue := [] }).ctl.device = .fault := by decide +kernel

/-! ### Witnesses: phases of ATTACH -/

/-- `PhaseTimersMoveTheLane`: each timer running and not; in RESETTING, with the device RUNNING and in FAULT; no gap, a
gap of no job, the ATTACH's own gap in RUNNING and in FAULT. -/
theorem witness_PhaseTimersMoveTheLane :
    ({ phase .powering with powerSettle := some 20 } : Lane).powerSettle.isSome = true ∧
    (phase .powering).powerSettle = none ∧ ({ phase .powering with checkWait := some 1 } : Lane).checkWait.isSome = true ∧
    (phase .powering).checkWait = none ∧
    (let s := work .running { phase .resetting with resetPulse := some 10, bootSettle := some 30 } attachJob;
      (s.lane 0).state = .resetting ∧ (s.lane 0).queue = 0 :: [] ∧ s.slot 0 = some attachJob ∧
      (s.lane 0).step ≠ .none ∧ (s.lane 0).resetPulse.isSome = true ∧ (s.lane 0).bootSettle.isSome = true ∧
      s.ctl.device ≠ .fault ∧ (s.lane 0).tx = .idle) ∧
    (phase .resetting).resetPulse = none ∧ (phase .resetting).bootSettle = none ∧
    (work .fault (phase .resetting) attachJob).ctl.device = .fault ∧
    (ready .none).rateGap = none ∧ (({ ready .none with rateGap := some 4 } : Lane).rateGap = some 4 ∧
      (ready .none).step ≠ .attachRateGap) ∧
    (let s := work .running { ready .attachRateGap with rateGap := some 4 } attachJob;
      (s.lane 0).rateGap = some 4 ∧ (s.lane 0).step = .attachRateGap ∧ (s.lane 0).queue = 0 :: [] ∧
      s.slot 0 = some attachJob ∧ s.mayRequest 0) ∧
    (work .fault { ready .attachRateGap with rateGap := some 4 } attachJob).ctl.device = .fault ∧
    (landing .attachRateGap).readback ≠ none := by
  unfold State.mayRequest
  decide +kernel

/-- A lane in TRAINING whose timer runs. -/
def training (attempts : Nat) : Lane := { phase .training with training := some 50, attempts := attempts }

/-- `TrainingSucceedsOrRetries`: the pattern going out and not; characters that count for nothing, and the answer; the
timeout after the third attempt and the fourth; in FAULT. -/
theorem witness_TrainingSucceedsOrRetries :
    (let s := work .running { phase .training with tx := .pattern [0x55, 0x55, 0x55] } attachJob;
      (s.lane 0).state = .training ∧ (s.lane 0).queue = 0 :: [] ∧ s.slot 0 = some attachJob ∧
      (s.lane 0).tx = .pattern [0x55, 0x55, 0x55] ∧ (s.lane 0).training = none) ∧
    ((RxChar.ofByte 0xB3).inError = false ∧ (RxChar.ofByte 0xB3).data = 0xB3 ∧ (RxChar.ofByte 0xB2).data ≠ 0xB3 ∧
      ({ RxChar.ofByte 0xB3 with stop := false } : RxChar).inError = true) ∧
    (let s := work .running (training 3) attachJob;
      (s.lane 0).training.isSome = true ∧ s.ctl.device ≠ .fault ∧ (s.lane 0).tx = .idle ∧
      (s.lane 0).outstanding = none ∧ (s.lane 0).readback = none ∧ (s.lane 0).attempts < 4 ∧ (s.lane 0).queue = [0] ∧
      attachJob.spec.params = .attach attach ∧ (s.lane 0).step = .attachPhase ∧ (s.lane 0).identity = none ∧
      (s.lane 0).unlocked = false ∧ attachJob.results[0] = none) ∧
    4 ≤ (training 4).attempts ∧
    ((work .running { training 1 with readback := some payloadOut } attachJob).lane 0).readback ≠ none ∧ (work .fault (training 1) attachJob).ctl.device = .fault := by decide +kernel

/-! ### Witnesses: the Loader Link -/

/-- `FramesAreReadBackOrSpoiled`: the longest payload, a check that differs, the first length that is too long. -/
theorem witness_FramesAreReadBackOrSpoiled :
    (List.replicate 132 (0 : Byte)).length ≤ 132 ∧ ((0 : Byte) ++ (0 : Byte) : BitVec 16) ≠ crc16 [0, 1, 0x81] ∧
    132 < (133 : Byte).toNat := by decide +kernel

/-- `ResponseTimerStartsAndRunsOut`: a live frame, one whose request has ended, none; the timer not running, running
with a retry left, and with none left. -/
theorem witness_ResponseTimerStartsAndRunsOut :
    (let s := work .running { busy .protect .protect [1] with tx := .frame [0xC5] true } (job (.protect 1) .active);
      (s.lane 0).tx = .frame [0xC5] true ∧ (s.lane 0).outstanding = some (req .protect [1]) ∧
      s.ctl.inForce = some settings ∧ (s.lane 0).queue = [0] ∧ s.slot 0 = some (job (.protect 1) .active) ∧
      (job (.protect 1) .active).results[0] = none ∧ (s.lane 0).state ≠ .faulted) ∧
    (let l : Lane := { ready .none with tx := .frame [0xC5] false };
      l.tx = .frame [0xC5] false ∧ l.state ≠ .training ∧ l.step = .none) ∧
    (ready .none).tx = .idle ∧ ({ req .protect [1] with timer := none } : Request).timer = none ∧
    (req .protect [1]).timer.isSome = true ∧ (req .protect [1]).retries < (job (.protect 1) .active).spec.retryLimit ∧
    (job (.protect 1) .active).spec.retryLimit ≤ ({ req .protect [1] with retries := 1 } : Request).retries := by
  decide +kernel

/-- `CharactersAndSpoiledFrames`: a receiver off and on, outside and inside a frame; the gap, a character in error, a long
length, a CRC that differs; with a retry left, with none, and with no request outstanding; a good frame with no request
outstanding, and with another seq. -/
theorem witness_CharactersAndSpoiledFrames :
    (let l : Lane := { busy .protect .protect [1] with rx := some [0xC5, 0] };
      l.receiving = true ∧ l.rx.isSome = true ∧ ({ RxChar.ofByte 5 with parity := true } : RxChar).inError = true ∧
      rxStatus (l.received [5]) = .inside ∧ rxStatus ((ready .none).received [0xC5, 133]) = .tooLong ∧
      rxStatus (l.received [5, 0x81, 0, 0]) = .badCrc ∧ l.outstanding = some (req .protect [1]) ∧
      ((req .protect [1]).timer.isSome = true ∧ (req .protect [1]).retries < (job (.protect 1) .active).spec.retryLimit) ∧
      ({ req .protect [1] with timer := none } : Request).timer = none ∧ (ready .none).outstanding = none) ∧
    (phase .training).receiving = false ∧ (ready .none).receiving = true ∧ (ready .none).rx = none ∧
    ((RxChar.ofByte 0xC5).inError = false ∧ (RxChar.ofByte 0xC5).data = 0xC5 ∧ (RxChar.ofByte 0xC4).data ≠ 0xC5) ∧
    (({ ready .none with rx := some [0xC5] } : Lane).rx = some [0xC5] ∧
      rxStatus ([0xC5] ++ [(RxChar.ofByte 132).data]) = .inside) ∧
    ((work .running (ready .none) attachJob).completes 0 (buildFrame 9 0x81 []) 9 0x81 [] ∧
      (ready .none).outstanding = none ∧ (busy .protect .protect [1]).outstanding = some (req .protect [1]) ∧
      (req .protect [1]).seq ≠ 9) := by
  unfold State.completes
  decide +kernel

/-- A lane whose request is outstanding, on the job of slot 0, works for it. -/
theorem works (st : Step) (k : ReqKind) (payload : List Byte) (j : Job) (hj : j.results[0] = none)
    (ha : j.abortMark = false) (hf : j.imageFailed = none) :
    (work .running (busy st k payload) j).working 0 0 j (req k payload) :=
  ⟨rfl, rfl, rfl, hj, ha, hf, rfl, rfl⟩

/-- A lane whose request is outstanding is engaged in the job of slot 0, marked or not. -/
theorem engages (st : Step) (k : ReqKind) (payload : List Byte) (j : Job) (hj : j.results[0] = none) :
    (work .running (busy st k payload) j).engaged 0 0 j (req k payload) := ⟨rfl, rfl, rfl, hj, rfl⟩

/-- The job with an abort pending. -/
def marked (j : Job) : Job := { j with abortMark := true }

/-- `WaitRestartsTheTimer`: WAITs of 800 and 5 000 ms, the 255th and the 256th; a job with an abort pending. -/
theorem witness_WaitRestartsTheTimer :
    let s := work .running (busy .eraseAll .erase [0, 0, 0, 0, 0]) (job .erase .active)
    s.engaged 0 0 (job .erase .active) (req .erase [0, 0, 0, 0, 0]) ∧
    (work .running (busy .eraseAll .erase [0, 0, 0, 0, 0]) (marked (job .erase .active))).engaged 0 0
      (marked (job .erase .active)) (req .erase [0, 0, 0, 0, 0]) ∧
    s.completes 0 (buildFrame 5 0x84 (beBytes 2 800)) 5 0x84 (beBytes 2 800) ∧ (beBytes 2 800).length = 2 ∧
    beNat (beBytes 2 800) ≠ 0 ∧ s.ctl.inForce = some settings ∧
    ({ req .erase [0, 0, 0, 0, 0] with waits := 254 } : Request).waits < 255 ∧
    ({ req .erase [0, 0, 0, 0, 0] with waits := 255 } : Request).waits = 255 ∧
    s.completes 0 (buildFrame 5 0x85 [1]) 5 0x85 [1] := by
  refine ⟨engages _ _ _ _ rfl, engages _ _ _ _ rfl, ?_⟩
  unfold State.completes
  decide +kernel

/-- `BreachFaultsProtocol`: each of its six cases at a PROTECT or an IDENTIFY; an abort pending at each. -/
theorem witness_BreachFaultsProtocol :
    let s := work .running (busy .protect .protect [1]) (job (.protect 1) .active)
    let u := work .running (busy .attachIdentify .identify []) attachJob
    s.engaged 0 0 (job (.protect 1) .active) (req .protect [1]) ∧ u.engaged 0 0 attachJob (req .identify []) ∧
    (work .running (busy .protect .protect [1]) (marked (job (.protect 1) .active))).engaged 0 0
      (marked (job (.protect 1) .active)) (req .protect [1]) ∧
    (work .running (busy .attachIdentifyAgain .identify []) (marked attachJob)).engaged 0 0 (marked attachJob)
      (req .identify []) ∧
    (s.completes 0 (buildFrame 5 0x82 []) 5 0x82 [] ∧ (0x82 : Byte) ≠ (req .protect [1]).kind.goodCode) ∧
    (s.completes 0 (buildFrame 5 0x84 [0, 0]) 5 0x84 [0, 0] ∧ beNat [0, 0] = 0) ∧
    s.completes 0 (buildFrame 5 0x85 [11]) 5 0x85 [11] ∧ s.completes 0 (buildFrame 5 0x85 []) 5 0x85 [] ∧
    u.completes 0 (buildFrame 5 0x85 [2]) 5 0x85 [2] ∧
    (s.completes 0 (buildFrame 5 0x81 [0]) 5 0x81 [0] ∧ goodForm (req .protect [1]) (s.lane 0).rate [0] = false) ∧
    (let v := work .running (busy .attachIdentifyAgain .identify []) attachJob;
      let other := helloOf [0x12, 0x35] 1048576 1 5 0x11;
      v.completes 0 (buildFrame 5 0x83 other) 5 0x83 other ∧ goodForm (req .identify []) (v.lane 0).rate other = true ∧
      (v.lane 0).identity = some ident ∧ ident.deviceClass.toNat ≠ beField other 0 2) := by
  refine ⟨engages _ _ _ _ rfl, engages _ _ _ _ rfl, engages _ _ _ _ rfl, engages _ _ _ _ rfl, ?_⟩
  unfold State.completes
  decide +kernel

/-- `NakRetransmitsOrRefuses`: FRAME with a retry left and with none, and with an abort pending; another reason; AUTH to UNLOCK. -/
theorem witness_NakRetransmitsOrRefuses :
    let s := work .running (busy .protect .protect [1]) (job (.protect 1) .active)
    let u := work .running (busy .attachCredential .unlock [1, 2, 3, 4]) attachJob
    s.working 0 0 (job (.protect 1) .active) (req .protect [1]) ∧ u.working 0 0 attachJob (req .unlock [1, 2, 3, 4]) ∧
    s.engaged 0 0 (job (.protect 1) .active) (req .protect [1]) ∧
    (work .running (busy .protect .protect [1]) (marked (job (.protect 1) .active))).engaged 0 0
      (marked (job (.protect 1) .active)) (req .protect [1]) ∧
    (s.completes 0 (buildFrame 5 0x85 [1]) 5 0x85 [1] ∧ NakReason.ofCode 1 = some .frame ∧
      (req .protect [1]).timer.isSome = true ∧ (req .protect [1]).retries < (job (.protect 1) .active).spec.retryLimit) ∧
    ({ req .protect [1] with timer := none } : Request).timer = none ∧
    (s.completes 0 (buildFrame 5 0x85 [10]) 5 0x85 [10] ∧ NakReason.ofCode 10 = some .rate) ∧
    (u.completes 0 (buildFrame 5 0x85 [6]) 5 0x85 [6] ∧ NakReason.ofCode 6 = some .auth ∧
      (req .unlock [1, 2, 3, 4]).kind ≠ .identify) := by
  refine ⟨works _ _ _ _ rfl rfl rfl, works _ _ _ _ rfl rfl rfl, engages _ _ _ _ rfl, engages _ _ _ _ rfl, ?_⟩
  unfold State.completes
  decide +kernel

/-- `AcksThatFinishAJob`: an ACK to each of its four requests. -/
theorem witness_AcksThatFinishAJob :
    let p := work .running (busy .protect .protect [1]) (job (.protect 1) .active)
    let e := work .running (busy .eraseAll .erase [0, 0, 0, 0, 0]) (job .erase .active)
    let d := work .running (busy .detachStart .start [0, 0, 0, 0]) (job (.detach 0) .active)
    let u := work .running { busy .attachCredential .unlock [1, 2, 3, 4] with pinned := some 2 } attachJob
    (p.working 0 0 (job (.protect 1) .active) (req .protect [1]) ∧ p.completes 0 (buildFrame 5 0x81 []) 5 0x81 [] ∧
      goodForm (req .protect [1]) (p.lane 0).rate [] = true) ∧
    (e.working 0 0 (job .erase .active) (req .erase [0, 0, 0, 0, 0]) ∧
      e.completes 0 (buildFrame 5 0x81 [2]) 5 0x81 [2] ∧ goodForm (req .erase [0, 0, 0, 0, 0]) (e.lane 0).rate [2] = true) ∧
    (d.working 0 0 (job (.detach 0) .active) (req .start [0, 0, 0, 0]) ∧ d.completes 0 (buildFrame 5 0x81 []) 5 0x81 [] ∧
      goodForm (req .start [0, 0, 0, 0]) (d.lane 0).rate [] = true) ∧
    (u.working 0 0 attachJob (req .unlock [1, 2, 3, 4]) ∧ u.completes 0 (buildFrame 5 0x81 []) 5 0x81 [] ∧
      goodForm (req .unlock [1, 2, 3, 4]) (u.lane 0).rate [] = true) := by
  unfold State.working State.completes
  decide +kernel

/-- `HelloAndTheRateChange`: a record that supports the target rate 4, one that does not, the ACK to SET_RATE. -/
theorem witness_HelloAndTheRateChange :
    (let s := work .running (busy .attachIdentify .identify []) attachJob;
      s.working 0 0 attachJob (req .identify []) ∧
      s.completes 0 (buildFrame 5 0x83 (hello 0x11)) 5 0x83 (hello 0x11) ∧ (req .identify []).kind = .identify ∧
      (s.lane 0).step = .attachIdentify ∧ attachJob.spec.params = .attach attach ∧
      goodForm (req .identify []) (s.lane 0).rate (hello 0x11) = true ∧ attach.targetRate ≠ (s.lane 0).rate ∧
      (s.lane 0).pinned = none ∧ (parseIdentity (hello 0x11)).rates.getLsbD 4 = true ∧ (s.lane 0).tx = .idle ∧
      s.ctl.device ≠ .fault ∧ s.completes 0 (buildFrame 5 0x83 (hello 0x01)) 5 0x83 (hello 0x01) ∧
      goodForm (req .identify []) (s.lane 0).rate (hello 0x01) = true ∧
      (parseIdentity (hello 0x01)).rates.getLsbD 4 = false) ∧
    (let s := work .running (busy .attachSetRate .setRate [4]) attachJob;
      s.working 0 0 attachJob (req .setRate [4]) ∧ s.completes 0 (buildFrame 5 0x81 []) 5 0x81 [] ∧
      (s.lane 0).step = .attachSetRate ∧ (s.lane 0).pinned = none) := by
  unfold State.working State.completes
  decide +kernel

/-- `MarkedJobsEndWithTheirRequest`: an abort pending at an ACK and at a NAK of a PROTECT; an image-failed PROGRAM at the
ACK to its WRITE; a START with an abort pending. -/
theorem witness_MarkedJobsEndWithTheirRequest :
    (let j := { job (.protect 1) .active with abortMark := true };
      let s := work .running (busy .protect .protect [1]) j;
      s.engaged 0 0 j (req .protect [1]) ∧ j.abortMark = true ∧ (s.lane 0).step.request = some (req .protect [1]).kind ∧
      (s.lane 0).step ≠ .attachIdentify ∧ s.completes 0 (buildFrame 5 0x81 []) 5 (req .protect [1]).kind.goodCode [] ∧
      goodForm (req .protect [1]) (s.lane 0).rate [] = true ∧ s.completes 0 (buildFrame 5 0x85 [7]) 5 0x85 [7] ∧
      NakReason.ofCode 7 = some .guarded) ∧
    (let j := { job .program .active with imageFailed := some (0, 1) };
      let q := req .write [0, 0, 1, 0, 9];
      let s := work .running (busy (.programWrite 0) .write [0, 0, 1, 0, 9]) j;
      s.engaged 0 0 j q ∧ j.abortMark = false ∧ j.imageFailed ≠ none ∧ (s.lane 0).step.request = some q.kind ∧
      s.completes 0 (buildFrame 5 0x81 []) 5 q.kind.goodCode [] ∧ goodForm q (s.lane 0).rate [] = true ∧
      j.list[0]? = some seg) ∧
    (let j := { job (.detach 0) .active with abortMark := true };
      let q := req .start [0, 0, 0, 0];
      let s := work .running (busy .detachStart .start [0, 0, 0, 0]) j;
      s.engaged 0 0 j q ∧ j.imageFailed = none ∧ (s.lane 0).step.request = some q.kind ∧
      s.completes 0 (buildFrame 5 0x81 []) 5 0x81 [] ∧ s.completes 0 (buildFrame 5 0x85 [5]) 5 0x85 [5] ∧
      NakReason.ofCode 5 = some .locked) := by
  unfold State.engaged State.completes
  decide +kernel

/-- `UnlockDecisionAndCredentialStep`: both HELLOs, with no credential required, selector NONE, no entry that resolves,
attempts at the reserve and above it, TXD idle and busy, and FAULT; FRAME_SENT with the step waiting, and a readback
write of an ended job in flight. -/
theorem witness_UnlockDecisionAndCredentialStep :
    (let s := withCred (work .running { busy .attachIdentify .identify [] with rate := 4 } attachJob) 0;
      s.working 0 0 attachJob (req .identify []) ∧ (s.lane 0).step = .attachIdentify ∧ attach.targetRate = (s.lane 0).rate ∧
      s.completes 0 (buildFrame 5 0x83 (hello 0x11)) 5 0x83 (hello 0x11) ∧
      goodForm (req .identify []) (s.lane 0).rate (hello 0x11) = true ∧
      (parseIdentity (hello 0x11)).credentialRequired = true ∧ (s.lane 0).pinned = none ∧
      attachJob.spec.params = .attach attach ∧ attach.selector ≠ .none ∧ s.ctl.inForce = some settings ∧
      ((s.cred 2).valid = true ∧
        (s.cred 2).mask &&& (parseIdentity (hello 0x11)).deviceClass = (s.cred 2).mask &&& (s.cred 2).cls ∧
        ∀ b : CredId, b < 2 → (s.cred b).valid = false) ∧
      settings.reserve < (parseIdentity (hello 0x11)).attempts.toNat ∧ (s.lane 0).answered.tx = .idle ∧
      (parseIdentity (helloOf [0x12, 0x34] 1048576 1 1 0x11)).attempts.toNat ≤ settings.reserve ∧
      (parseIdentity (helloOf [0x12, 0x34] 1048576 0 5 0x11)).credentialRequired = false ∧
      ({ attach with selector := .none } : AttachParams).selector = .none) ∧
    (let s := work .running { busy .attachIdentifyAgain .identify [] with rate := 4, tx := .frame [0xC5] true } attachJob;
      s.working 0 0 attachJob (req .identify []) ∧
      s.completes 0 (buildFrame 5 0x83 (hello 0x11)) 5 0x83 (hello 0x11) ∧
      (s.lane 0).identity.map Identity.deviceClass = some (parseIdentity (hello 0x11)).deviceClass ∧
      (s.lane 0).answered.tx ≠ .idle ∧ ∀ c : CredId, (s.cred c).valid = false) ∧
    (work .fault (busy .attachIdentify .identify []) attachJob).ctl.device = .fault ∧
    (let s := withCred (work .running { ready .attachCredential with tx := .frame [0xC5] false } attachJob) 0;
      (s.lane 0).state = .ready ∧ (s.lane 0).outstanding = none ∧ (s.lane 0).step = .attachCredential ∧
      (s.lane 0).queue = [0] ∧ s.slot 0 = some attachJob ∧ attachJob.results[0] = none ∧
      (s.lane 0).tx = .frame [0xC5] false ∧ (s.lane 0).identity = some ident) ∧
    (landing .attachCredential).readback ≠ none := by
  unfold State.working State.completes
  decide +kernel

/-- `ChunkSendWritesTheCursorChunk`: the block READY; its read waiting; FAULT. -/
theorem witness_ChunkSendWritesTheCursorChunk :
    let l : Lane := { ready (.programWrite 0) with block := 1 }
    let s := programming .running l (job .program .active) (.ready [1, 2, 3, 4])
    s.pool.sound ∧ (programming .running l (job .program .active) .waiting).pool.sound ∧
    (s.lane 0).step = .programWrite 0 ∧ (s.lane 0).queue = 0 :: [] ∧ s.slot 0 = some (job .program .active) ∧
    (job .program .active).list[0]? = some seg ∧ s.pool.block 5 = some (blockAt (.ready [1, 2, 3, 4]) 1) ∧
    (blockAt (.ready [1, 2, 3, 4]) 1).segment = (s.lane 0).segment ∧
    (blockAt (.ready [1, 2, 3, 4]) 1).index = (s.lane 0).block ∧ (s.lane 0).identity = some ident ∧
    ident.maxWrite.toNat ≤ 128 ∧ 0 < ident.granule.toNat ∧ ident.maxWrite.toNat % ident.granule.toNat = 0 ∧
    s.mayRequest 0 ∧ (programming .fault l (job .program .active) .waiting).ctl.device = .fault ∧
    (landing (.programWrite 0)).readback ≠ none := by
  refine ⟨pool_ready_sound _, pool_sound, ?_⟩
  unfold State.mayRequest
  decide +kernel

/-- A READBACK of 200 bytes. -/
def readback : Params := .readback 0x100 200 0x8000 256

/-- `DataAnswersTakeEffect`: a WRITE of 8 bytes within block 0; a SUM that differs, one that does not with a segment to
follow and with none; a DATA of 2 bytes. -/
theorem witness_DataAnswersTakeEffect :
    (let chunk : List Byte := [1, 2, 3, 4, 5, 6, 7, 8];
      let s := work .running (busy (.programWrite 0) .write ([0, 0, 1, 0] ++ chunk)) (job .program .active);
      s.working 0 0 (job .program .active) (req .write ([0, 0, 1, 0] ++ chunk)) ∧
      s.completes 0 (buildFrame 5 0x81 []) 5 0x81 [] ∧ (job .program .active).list[0]? = some seg ∧
      (s.lane 0).offset + chunk.length < min 128 (seg.length - 128 * (s.lane 0).block)) ∧
    (let s := work .running (busy (.verifySum 0) .sum (sumPayload seg)) (job .verify .active);
      s.working 0 0 (job .verify .active) (req .sum (sumPayload seg)) ∧
      (s.completes 0 (buildFrame 5 0x81 [0, 0, 0, 0]) 5 0x81 [0, 0, 0, 0] ∧ beNat [0, 0, 0, 0] ≠ seg.crc.toNat) ∧
      (s.completes 0 (buildFrame 5 0x81 [0, 0, 0, 0x11]) 5 0x81 [0, 0, 0, 0x11] ∧
        beNat [0, 0, 0, 0x11] = seg.crc.toNat ∧ 0 + 1 = (job .verify .active).list.length) ∧
      ({ job .verify .active with list := [seg, seg] } : Job).list[0 + 1]? = some seg) ∧
    (let q := req .read [0, 0, 1, 0, 0, 2];
      let s := work .running (busy (.readbackRead 0) .read [0, 0, 1, 0, 0, 2]) (job readback .active);
      s.working 0 0 (job readback .active) q ∧ s.completes 0 (buildFrame 5 0x82 [7, 9]) 5 0x82 [7, 9] ∧
      [7, 9].length = readLength q ∧ (job readback .active).spec.params = .readback 0x100 200 0x8000 256 ∧
      (s.lane 0).pinned = none) := by
  unfold State.working State.completes
  decide +kernel

/-- Regions of two sectors at 0x1000 and of one at 0x4000. -/
def regions : List Segment :=
  [{ seg with target := 0x1000, length := 0x2000 }, { seg with target := 0x4000, length := 0x1000 }]

/-- `ErasesGoOnToTheEnd`: an ERASE of one sector of two; of both, with a region to follow and with none; the erase step
of a segment of two sectors after one sector and after both. -/
theorem witness_ErasesGoOnToTheEnd :
    (∀ count : Byte, (let q := req .erase [0, 0, 0x10, 0, count];
      let j := { job .erase .active with list := regions };
      let s := work .running (busy (.eraseRegion 0 0) .erase [0, 0, 0x10, 0, count]) j;
      s.working 0 0 j q ∧ (s.lane 0).identity = some ident ∧ (s.lane 0).pinned = none ∧
      (s.lane 0).step = .eraseRegion 0 0 ∧ (s.lane 0).tx = .idle)) ∧
    (work .running (busy (.eraseRegion 0 0) .erase []) attachJob).completes 0 (buildFrame 5 0x81 [2]) 5 0x81 [2] ∧
    regions[0]? = some { seg with target := 0x1000, length := 0x2000 } ∧
    (0 + beField [0, 0, 0x10, 0, 1] 4 1 < 0x2000 / ident.sectorSize.toNat ∧
      0x2000 / ident.sectorSize.toNat ≤ 0 + beField [0, 0, 0x10, 0, 2] 4 1 ∧
      regions[0 + 1]? = some { seg with target := 0x4000, length := 0x1000 } ∧ 1 + 1 = regions.length) ∧
    (let q := req .erase [0, 0, 0x10, 0, 1];
      let j := { job .program .active with list := regions };
      let s := work .running (busy (.programErase 0) .erase [0, 0, 0x10, 0, 1]) j;
      s.working 0 0 j q ∧ (s.lane 0).step = .programErase 0 ∧
      max ((0x1000 - 0) / 0x1000) ((beField q.payload 0 4 + 1 * 0x1000 - 0 + (0x1000 - 1)) / 0x1000) ≤
        (0x1000 + 0x2000 - 1 - 0) / 0x1000 ∧
      (0x1000 + 0x2000 - 1 - 0) / 0x1000 <
        max ((0x1000 - 0) / 0x1000) ((beField [0, 0, 0x10, 0, 2] 0 4 + 2 * 0x1000 - 0 + (0x1000 - 1)) / 0x1000)) := by
  refine ⟨fun _ => ⟨works _ _ _ _ rfl rfl rfl, rfl, rfl, rfl, rfl⟩, ?_⟩
  unfold State.working State.completes
  decide +kernel

/-- A lane BUSY with the last WRITE of block 1 of segment 0: 4 bytes at offset 124. -/
def lastChunk : Lane :=
  { busy (.programWrite 0) .write [0, 0, 1, 0xFC, 1, 2, 3, 4] with block := 1, offset := 124 }

/-- A lane BUSY with the SUM of segment 0 after its write step. -/
def verifying : Lane := { busy (.programVerify 0) .sum (sumPayload seg) with segment := 1 }

/-- `BlocksAreConsumedAndSegmentsEnd`: the last WRITE of a block with a block to follow and at the end of a segment, with
and without HAS_CRC, VERIFY_AFTER and a next segment; the SUM that follows, the same and not. -/
theorem witness_BlocksAreConsumedAndSegmentsEnd :
    (∀ list : List Segment, (let j := { job .program .active with list := list };
      let s := programming .running lastChunk j (.ready [1, 2, 3, 4]);
      s.working 0 0 j (req .write [0, 0, 1, 0xFC, 1, 2, 3, 4]) ∧ (s.lane 0).pinned = none ∧ s.pool.sound ∧
      s.pool.block 5 = some (blockAt (.ready [1, 2, 3, 4]) 1) ∧ (s.lane 0).step = .programWrite 0 ∧
      (s.lane 0).segment = 0 ∧ (s.lane 0).block = 1 ∧ (s.lane 0).tx = .idle)) ∧
    (programming .running lastChunk (job .program .active) .waiting).completes 0 (buildFrame 5 0x81 []) 5 0x81 [] ∧
    inSet (blockAt .waiting 1).refs 0 = true ∧ min 128 (seg.length - 128 * 1) ≤ 124 + [1, 2, 3, 4].length ∧
    (1 < (300 + 127) / 128 ∧ 1 + 1 < (300 + 127) / 128 ∧ 1 + 1 = (seg.length + 127) / 128) ∧
    (seg.hasCrc = true ∧ ~~~ crc32Feed lastChunk.crc [1, 2, 3, 4] ≠ seg.crc ∧
      ({ seg with hasCrc := false } : Segment).hasCrc = false) ∧
    (let s := work .running verifying (job .program .active);
      s.working 0 0 (job .program .active) (req .sum (sumPayload seg)) ∧
      (s.lane 0).step = .programVerify 0 ∧ (s.lane 0).segment = 0 + 1 ∧ (s.lane 0).block = 0 ∧ (s.lane 0).offset = 0 ∧
      s.completes 0 (buildFrame 5 0x81 [0, 0, 0, 0]) 5 0x81 [0, 0, 0, 0] ∧
      beNat [0, 0, 0, 0] = (~~~ (s.lane 0).crc).toNat ∧
      s.completes 0 (buildFrame 5 0x81 [0, 0, 0, 1]) 5 0x81 [0, 0, 0, 1] ∧
      beNat [0, 0, 0, 1] ≠ (~~~ (s.lane 0).crc).toNat) := by
  refine ⟨fun _ => ⟨⟨rfl, rfl, rfl, rfl, rfl, rfl, rfl, rfl⟩, rfl, pool_ready_sound _, rfl, rfl, rfl, rfl, rfl⟩, ?_⟩
  unfold State.working State.completes
  decide +kernel

/-- `ReadbackWriteEndGoesOn`: the first payload of two, and the last; FAULT; a write that an ended job left in flight, with
each request that waits for it, and with none. -/
theorem witness_ReadbackWriteEndGoesOn :
    (let s := fun off : Nat => work .running (landing (.readbackWrite off)) (job readback .active);
      (∀ off : Nat, ((s off).lane 0).step = .readbackWrite off ∧ ((s off).lane 0).readback = some payloadOut ∧
        ((s off).lane 0).queue = [0] ∧ (s off).slot 0 = some (job readback .active) ∧
        ((s off).setLane 0 { (s off).lane 0 with readback := none, step := .readbackRead (off + 128) }).mayRequest 0) ∧
      (job readback .active).results[0] = none ∧
      (job readback .active).spec.params = .readback 0x100 200 0x8000 256 ∧ 0 + 128 < 200 ∧ 200 ≤ 128 + 128) ∧
    (work .fault (landing (.readbackRead 0)) (job readback .active)).ctl.device = .fault ∧
    (∀ (st : Step) (j : Job), (∀ off : Nat, st ≠ .readbackWrite off) →
      ((work .running (landing st) j).lane 0).readback = some payloadOut ∧
      (∀ off : Nat, ((work .running (landing st) j).lane 0).step ≠ .readbackWrite off) ∧
      ((work .running (landing st) j).lane 0).queue = 0 :: [] ∧ (work .running (landing st) j).slot 0 = some j ∧
      ((work .running (landing st) j).setLane 0
        { (work .running (landing st) j).lane 0 with readback := none }).mayRequest 0) ∧
    (let s := work .running { landing .attachIdentify with state := .training } attachJob;
      (s.lane 0).state = .training ∧ (s.lane 0).step = .attachIdentify ∧ (s.lane 0).outstanding = none ∧
      (s.lane 0).tx = .idle ∧ s.ctl.device ≠ .fault) ∧
    (job (.detach 0) .active).spec.params = .detach 0 ∧ (job (.protect 1) .active).spec.params = .protect 1 ∧
    (job .verify .active).list[0]? = some seg ∧ (landing .eraseAll).identity = some ident := by
  refine ⟨⟨fun off => ⟨rfl, rfl, rfl, rfl, rfl, rfl, rfl, rfl, ?_⟩, by decide +kernel⟩, rfl,
    fun st j h => ⟨rfl, h, rfl, rfl, rfl, rfl, rfl, rfl, ?_⟩, by decide +kernel⟩ <;>
  simp [work, at', State.setSlot, State.setLane]

/-! ### Witnesses: what every step keeps -/

/-- A part at work: a lane BUSY with an UNLOCK from entry 2, and a block whose read waits. -/
def atWork : State :=
  (withCred (work .running { busy .attachCredential .unlock [1, 2, 3, 4] with pinned := some 2 } attachJob) 1).setPool
    (pool .waiting 1)

/-- `LaneCommandsLeaveOtherLanes`: a lane's command that answers a next state. -/
theorem witness_LaneCommandsLeaveOtherLanes :
    laneOf (.frameSent 3) = some 3 ∧ ∃ t : State, exec (.frameSent 3) atWork = .next t := ⟨rfl, _, rfl⟩

/-- The five invariants hold of a part at work, and a step from it answers a next state. -/
theorem witness_EveryStepKeeps :
    atWork.lanesConform ∧ atWork.queuesFit ∧ atWork.pool.sound ∧ atWork.pinsMatch ∧ atWork.writer.ringSound ∧
    atWork.writer.queuesSound ∧ ∃ t : State, step { atWork with pending := [.responseTimeout 0] } = .next t := by
  refine ⟨?_, ?_, pool_sound, ?_, ?_, ?_, _, rfl⟩
  · unfold State.lanesConform; decide +kernel
  · unfold State.queuesFit; decide +kernel
  · unfold State.pinsMatch; decide +kernel
  · unfold Writer.ringSound CompletionRing.sound; decide +kernel
  · unfold Writer.queuesSound; decide +kernel

/-! ### One or two steps of each command, with results worked out from the spec -/

/-- SOFT_RESET keeps CONFIG_ADDR and POWER_ON_RESET clears it; RESET is asserted after both (R164, R51). -/
theorem test_soft_reset : (after (exec .softReset atWork)).ctl.configAddr = 0x40
    ∧ ((after (exec .softReset atWork)).lane 0).resetPin = true := by decide +kernel
theorem test_power_on_reset : (after (exec .powerOnReset atWork)).ctl.configAddr = 0 := by decide +kernel

/-- A write that sets both ENABLE and HALT in OFF enters ENABLING with the HALT kept, and in RUNNING enters QUIESCING
(R157). -/
theorem test_enable_with_halt_off : (after (exec (.enable true) (at' .off))).ctl.device = .enabling
    ∧ (after (exec (.enable true) (at' .off))).ctl.keptHalt = true := by decide +kernel
theorem test_enable_with_halt_running :
    (after (exec (.enable true) (work .running (ready .none) attachJob))).ctl.device = .quiescing := by decide +kernel
/-- HALT on a drained part is HALTED at once, with one message for the HALT bit (R161, R143). -/
theorem test_halt_drained : (after (exec .halt (at' .running))).ctl.device = .halted
    ∧ (after (exec .halt (at' .running))).ctl.irq.halt = true ∧ (after (exec .halt (at' .running))).ctl.messages = 1 := by
  decide +kernel
theorem test_drain_complete : (after (exec .drainComplete (at' .quiescing))).ctl.device = .halted := by decide +kernel

theorem test_submit_last_index : ((after (exec (.submitWrite 0x00000003) (at' .running))).ring 0).producer = 3 := by
  decide +kernel
theorem test_submit_unused_ring : (after (exec (.submitWrite 0x00010000) (at' .off))).ctl.submitError = true := by
  decide +kernel
/-- Host head 14 and tail 1 of 16: position 0 releases two of three records (R136). -/
theorem test_cq_head_releases : (after (exec (.cqHeadWrite 0) (cqAt 3))).writer.ring.unreleased = 1 := by decide +kernel
/-- The worked example of the completion ring: with 16 of 16 entries unreleased and head and tail at 14, no position
between them may be named (R136). -/
theorem test_cq_head_full_ring : (after (exec (.cqHeadWrite 2) (cqAt 16))).ctl.headError = true
    ∧ (after (exec (.cqHeadWrite 14) (cqAt 16))).writer.ring.unreleased = 0 := by decide +kernel
theorem test_irq_write : (after (exec (.irqWrite 4) (after (exec .halt (at' .running))))).ctl.irq.halt = false := by
  decide +kernel
theorem test_status_write :
    (after (exec (.statusWrite 0x100) (after (exec (.submitWrite 0x00040000) (at' .off))))).ctl.submitError = false := by
  decide +kernel
theorem test_config_addr_high : (after (exec (.configAddrWrite .high 0x12) (at' .off))).ctl.configAddr
    = 0x0000001200000040 := by decide +kernel
theorem test_register_write_ignored : after (exec (.registerWriteIgnored 0x20 32 7) (at' .off)) = at' .off := by
  decide +kernel
/-- RUNNING with cause none: STATUS reads 2; a lane READY reads 4 in LANE_STATE (R166, R28). -/
theorem test_status_word : readWord (at' .running) 0x0C = 2
    ∧ readWord ((at' .running).setLane 9 (ready .none)) 0x24 = 0x40 := by decide +kernel

/-- The kept SUBMITs 3 of rings 0 and 1 are good on rings of 4 entries (R123, R160). -/
theorem test_config_accepted :
    let t := after (exec (.configReadEnd .live (.good (block 4 1))) (enabling false))
    t.ctl.device = .running ∧ (t.ring 0).producer = 3 ∧ t.ctl.submitError = true ∧ t.writer.ring.base = 0x3000 := by
  decide +kernel
theorem test_config_refused :
    (after (exec (.configReadEnd .live (.good (block 3 1))) (enabling false))).ctl.cause = .configInvalid := by
  decide +kernel
/-- The first choice after a reset is ring 0, whose entry at consumer index 0 is read at the base (R125, R126). -/
theorem test_arbiter_choice :
    (after (exec .intakeArbiterChoice (choosing 3 none))).intake.engine = .recordRead 0 0x1000 := by decide +kernel
theorem test_record_read_bad_kind :
    (after (exec (.recordReadEnd .live (.good (record 12 0 1 0 0 0 []))) (reading (at' .running)))).writer.holding
      = [.intake { ring := 0, tag := 7, status := .invalid, detail := .badKind, irqNow := true }] := by decide +kernel
theorem test_record_read_claims_slot_zero :
    ((after (exec (.recordReadEnd .live (.good (record 4 1 0 0x1000 1 0x2000 []))) (reading (at' .running)))).slot 0).map
      Job.state = some .intake := by decide +kernel
/-- A PROGRAM with ERASE_BEFORE on an idle lane: its first ERASE asks for the one sector at 0 that covers 0x100 to 0x1FF
(R63), and the two reads of its window wait (R79). -/
theorem test_program_taken_up :
    let t := after (exec (.listReadEnd .live 0 (.good (listBytes 0x100 256))) (placing open' .program 8))
    (t.lane 0).tx = .frame (buildFrame 6 0x03 [0, 0, 0, 0, 1]) true ∧ t.pool.fetchQueue = [0, 1] := by decide +kernel
theorem test_job_on_faulted_lane :
    let t := after (exec (.recordReadEnd .live (.good (record 7 1 0 0 0 0x2000 [1])))
      (reading ((at' .running).setLane 0 { open' with state := .faulted })))
    t.outcomeOf 0 0 = some .laneFaulted := by decide +kernel
/-- DETACH of a READY lane: MODE off, RESET on, POWER off, in this order (R26, R43). -/
theorem test_detach_outputs :
    ((after (exec (.recordReadEnd .live (.good (record 2 1 0 0 0 0x2000 [])))
      (reading ((at' .running).setLane 0 { ready .none with queue := [] })))).lane 0).outputs
      = [{ pin := .mode, on := false }, { pin := .reset, on := true }, { pin := .power, on := false }] := by decide +kernel
/-- An ATTACH of a RELEASED lane asserts MODE before RESET and leaves POWER on (R26). -/
theorem test_attach_outputs :
    ((after (exec (.recordReadEnd .live (.good (record 1 1 0 0 0 0x2000 attachFields)))
      (reading ((at' .running).setLane 0 { ready .none with
        state := .released, modePin := false, identity := none, queue := [] })))).lane 0).outputs
      = [{ pin := .mode, on := true }, { pin := .reset, on := true }] := by decide +kernel
/-- An ABORT of a job on lanes 0, 1 and 2: lane 0 goes on, lanes 1 and 2 have ABORTED (R147, R148). -/
theorem test_abort_three_lanes :
    let t := after (exec (.recordReadEnd .live (.good abortRecord)) (three true (threeJob .active)))
    t.outcomeOf 0 0 = none ∧ t.outcomeOf 0 1 = some .aborted ∧ t.outcomeOf 0 2 = some .aborted
      ∧ (t.lane 2).queue = [5] ∧ (t.slot 0).map Job.state = some .active := by decide +kernel
theorem test_abort_waiting_barrier :
    let t := after (exec (.recordReadEnd .live (.good abortRecord)) (three true (threeJob .waiting)))
    (t.slot 0).map Job.state = some .retiring ∧ (t.slot 0).bind Job.final =
      some { status := .aborted, okMask := 0, failMask := 0 } := by decide +kernel
theorem test_list_read_failed :
    let t := after (exec (.listReadEnd .live 0 .failed) (work .running (ready .none) (listing false)))
    t.slot 0 = none ∧ t.writer.holding =
      [.intake { ring := 0, tag := 7, status := .hostError, detail := .none, irqNow := false }] := by decide +kernel
/-- Bytes beyond the length are 0 (R98). -/
theorem test_load_credential :
    (((after (exec (.loadCredentialReadEnd .live (.good [9, 8, 7, 6]))
      ((withCred (at' .running) 0).setEngine (.credentialRead 0 loadSpec)))).cred 2).bytes.take 6) = [9, 8, 7, 6, 0, 0] := by
  decide +kernel
theorem test_holding_queue_entry :
    (after (exec .holdingQueueEntry ((at' .running).joinWait (.job 0)))).writer.holding = [.job 0] := by decide +kernel
theorem test_transaction_start :
    (after (exec .completionTransactionStart (heading .running 0x2000 none))).writer.txn
      = some (.results [{ lane := 0, out := { addr := 0x2000, bytes := resultRecord 0 okResult } }]) := by decide +kernel
/-- A JOB record with phase 1, SUCCESS (1), tag 7 and OK mask 1 (R137, 11.2). -/
theorem test_result_write_end :
    (after (exec (.resultRecordWriteEnd .live 0 .good) (heading .running 0x2000 (some (.results [resultWrite 0]))))).writer.txn
      = some (.completion { addr := 0, bytes := [1, 1, 0, 1, 7, 0, 0, 0, 1, 0, 0, 0, 0, 0, 0, 0] }) := by decide +kernel
theorem test_record_write_end :
    let t := after (exec (.completionRecordWriteEnd .live .good)
      (heading .running 0 (some (.completion { addr := 0, bytes := [] }))))
    t.slot 0 = none ∧ t.writer.ring.tail = 1 ∧ t.writer.count = 1 ∧ t.writer.delayTimer = some 100 := by decide +kernel
/-- The place that a record leaves goes to the front of the wait list in the same happening: a job completed from INTAKE,
whose slot is then FREE (R131, R138, R140). -/
theorem test_record_end_promotes :
    let t := after (exec (.completionRecordWriteEnd .live .good)
      (((failedList .running).pushHolding (.event 0 brown)).setTxn (some (.completion { addr := 0, bytes := [] }))))
    t.slot 0 = none ∧ t.writer.waitList = [] ∧ t.writer.holding =
      [.intake { ring := 0, tag := 7, status := .hostError, detail := .none, irqNow := false }] := by decide +kernel
theorem test_coalescing_expiry :
    let s : State := { at' .running with writer := { Writer.reset with count := 1, delayTimer := some 100 } }
    (after (exec .coalescingDelayExpiry s)).ctl.irq.cq = true ∧ (after (exec .coalescingDelayExpiry s)).ctl.messages = 1 := by
  decide +kernel
theorem test_staging_issue :
    (after (exec .stagingReadIssue (programming .running (ready (.programWrite 0)) (job .program .active) .waiting))).pool.inFlight
      = 1 := by decide +kernel
/-- A failed read of block 1 of the segment at 0x100 ends the lane with HOST_READ at 0x180 (R88). -/
theorem test_staging_read_failed :
    ((after (exec (.stagingReadEnd .live 5 .failed)
      (programming .running (ready (.programWrite 0)) (job .program .active) .inFlight))).resultOf 0 0).bind LaneResult.addr
      = some 0x180 := by decide +kernel
/-- The chunk at block 1, offset 0 of the segment at 0x100 is written at 0x180 (R64). -/
theorem test_chunk_send :
    ((after (exec (.chunkSend 0) (programming .running { ready (.programWrite 0) with block := 1 } (job .program .active)
      (.ready [1, 2, 3, 4])))).lane 0).tx = .frame (buildFrame 6 0x04 [0, 0, 1, 0x80, 1, 2, 3, 4]) true := by
  decide +kernel
/-- With a readback write of an ended job in flight no chunk is sent (R69). -/
theorem test_chunk_send_waits_for_the_write :
    ((after (exec (.chunkSend 0) (programming .running { landing (.programWrite 0) with block := 1 }
      (job .program .active) (.ready [1, 2, 3, 4])))).lane 0).outstanding = none := by decide +kernel
/-- The READ of the job behind an aborted READBACK goes out at the end of the old write, failed as it is (R69). -/
theorem test_abandoned_readback_write_end :
    ((after (exec (.readbackWriteEnd .abandoned 0 .failed) (work .running (landing (.readbackRead 0))
      (job readback .active)))).lane 0).tx = .frame (buildFrame 6 0x05 [0, 0, 1, 0, 0, 128]) true := by decide +kernel
/-- The second READ of a READBACK of 200 bytes at 0x100 asks for 72 bytes at 0x180 (R68). -/
theorem test_readback_write_end :
    ((after (exec (.readbackWriteEnd .live 0 .good) (work .running { ready (.readbackWrite 0) with
      readback := some { addr := 0x8000, bytes := [7] } } (job readback .active)))).lane 0).tx
      = .frame (buildFrame 6 0x05 [0, 0, 1, 0x80, 0, 72]) true := by decide +kernel
theorem test_frame_sent :
    (((after (exec (.frameSent 0) (work .running { busy .protect .protect [1] with
      tx := .frame [] true, outstanding := some { req .protect [1] with timer := none } }
      (job (.protect 1) .active)))).lane 0).outstanding.bind Request.timer) = some 50 := by decide +kernel
theorem test_response_timeout :
    let t := after (exec (.responseTimeout 0) (work .running (busy .protect .protect [1]) (job (.protect 1) .active)))
    (t.lane 0).tx = .frame (buildFrame 5 0x07 [1]) true ∧ (t.lane 0).retransmits = 1 := by decide +kernel
/-- NO_RESPONSE on a request of a PROTECT shows its kind (R71), on SET_RATE none (R38, R75), and on SET_RATE with an
abort pending its own (R151). -/
theorem test_fault_kinds :
    let kindOf := fun (st : Step) (k : ReqKind) (j : Job) => ((after (exec (.responseTimeout 0) (work .running
      { busy st k [4] with outstanding := some { req k [4] with retries := 1 } } j))).resultOf 0 0).map LaneResult.kind
    kindOf .protect .protect (job (.protect 1) .active) = some (some .protect) ∧
      kindOf .attachSetRate .setRate { attachJob with spec := { attachJob.spec with retryLimit := 1 } } = some none ∧
      kindOf .attachSetRate .setRate { attachJob with abortMark := true } = some (some .setRate) := by decide +kernel
/-- A NAK to IDENTIFY is PROTOCOL with the kind IDENTIFY; a frame of a wrong kind names none (R37, R75). -/
theorem test_identify_fault_kind :
    let kindOf := fun (k : Byte) (payload : List Byte) => ((after (exec (.frameReceived 0 (buildFrame 5 k payload))
      (work .running (busy .attachIdentify .identify []) attachJob))).resultOf 0 0).map LaneResult.kind
    kindOf 0x85 [2] = some (some .identify) ∧ kindOf 0x82 [] = some none := by decide +kernel
/-- The example of R23: with a response timeout of 50 ms and a wait cap of 2 000 ms, 800 ms restarts the timer at
850 ms and 5 000 ms at 2 000 ms. -/
theorem test_wait_example :
    let timer := fun e : Nat => (((after (exec (.frameReceived 0 (buildFrame 5 0x84 (beBytes 2 e)))
      (work .running (busy .eraseAll .erase [0, 0, 0, 0, 0]) (job .erase .active)))).lane 0).outstanding.bind Request.timer)
    timer 800 = some 850 ∧ timer 5000 = some 2000 := by decide +kernel
/-- A NAK AUTH to UNLOCK lowers the attempts remaining from 5 to 4 (R104). -/
theorem test_nak_auth :
    (((after (exec (.frameReceived 0 (buildFrame 5 0x85 [6])) (work .running
      { busy .attachCredential .unlock [1, 2, 3, 4] with pinned := none } attachJob))).lane 0).identity.map Identity.attempts)
      = some 4 := by decide +kernel
/-- The ACK to a PROTECT with an abort pending sets the level, and the lane's outcome is ABORTED (R151). -/
theorem test_ack_of_aborted_job :
    let t := after (exec (.frameReceived 0 (buildFrame 5 0x81 [])) (work .running (busy .protect .protect [1])
      { job (.protect 1) .active with abortMark := true }))
    t.outcomeOf 0 0 = some .aborted ∧ (t.lane 0).identity.map Identity.level = some 1 := by decide +kernel
/-- The HELLO at the target rate: UNLOCK goes out with the bytes of entry 2, which is pinned (R40, R103). -/
theorem test_unlock_at_hello :
    let t := after (exec (.frameReceived 0 (buildFrame 5 0x83 (hello 0x11)))
      (withCred (work .running { busy .attachIdentify .identify [] with rate := 4 } attachJob) 0))
    (t.lane 0).tx = .frame (buildFrame 6 0x02 [1, 2, 3, 4]) true ∧ (t.cred 2).pins = 1 := by decide +kernel
/-- After one sector of two the ERASE asks for the other (R61). -/
theorem test_erase_next_sector :
    ((after (exec (.frameReceived 0 (buildFrame 5 0x81 [0])) (work .running
      (busy (.eraseRegion 0 0) .erase [0, 0, 0x10, 0, 1]) { job .erase .active with list := regions }))).lane 0).tx
      = .frame (buildFrame 6 0x03 [0, 0, 0x20, 0, 1]) true := by decide +kernel
/-- The last chunk of an image whose CRC differs ends the job with IMAGE_CHECK (R66). -/
theorem test_image_check :
    (after (exec (.frameReceived 0 (buildFrame 5 0x81 [])) (programming .running lastChunk (job .program .active)
      (.ready [1, 2, 3, 4])))).outcomeOf 0 0 = some .imageCheck := by decide +kernel
theorem test_frame_spoiled :
    ((after (exec (.frameSpoiled 0 [0xC5, 133] none) (work .running (busy .protect .protect [1])
      (job (.protect 1) .active)))).lane 0).linkErrors = 1 := by decide +kernel
theorem test_frame_gap_timeout :
    ((after (exec (.frameGapTimeout 0) (work .running { ready .none with rx := some [0xC5] } attachJob))).lane 0).rx
      = none := by decide +kernel
theorem test_frame_character :
    ((after (exec (.frameCharacterReceived 0 (RxChar.ofByte 0xC5)) (work .running (ready .none) attachJob))).lane 0).rx
      = some [0xC5] := by decide +kernel
theorem test_training_pattern_sent :
    ((after (exec (.trainingPatternSent 0) (work .running { phase .training with tx := .pattern [0x55, 0x55, 0x55] } attachJob))).lane 0).training
      = some 50 := by decide +kernel
/-- IDENTIFY is the session's first request and has seq 1 (R4, R21, R37). -/
theorem test_training_answer :
    ((after (exec (.trainingCharacterReceived 0 (RxChar.ofByte 0xB3)) (work .running (training 1) attachJob))).lane 0).tx
      = .frame (buildFrame 1 0x01 []) true := by decide +kernel
theorem test_training_fourth_timeout :
    ((after (exec (.trainingTimeout 0) (work .running (training 4) attachJob))).lane 0).faultCode = some .noTarget := by
  decide +kernel
theorem test_power_settle :
    ((after (exec (.powerSettleExpiry 0) (work .running { phase .powering with powerSettle := some 20 } attachJob))).lane
      0).checkPending = true := by decide +kernel
theorem test_check_wait :
    ((after (exec (.checkWaitExpiry 0) (work .running { phase .powering with checkWait := some 1 } attachJob))).lane
      0).checkPending = true := by decide +kernel
theorem test_reset_pulse :
    let t := after (exec (.resetPulseExpiry 0) (work .fault { phase .resetting with
      resetPin := true, resetPulse := some 10 } attachJob))
    (t.lane 0).resetPin = false ∧ (t.lane 0).bootSettle = some 30 := by decide +kernel
theorem test_boot_settle :
    let t := after (exec (.bootSettleExpiry 0) (work .running { phase .resetting with bootSettle := some 30 } attachJob))
    (t.lane 0).tx = .pattern [0x55, 0x55, 0x55] ∧ (t.lane 0).attempts = 1 := by decide +kernel
theorem test_rate_gap :
    let t := after (exec (.rateGapExpiry 0) (work .running { ready .attachRateGap with rateGap := some 4 } attachJob))
    (t.lane 0).rate = 4 ∧ (t.lane 0).tx = .frame (buildFrame 6 0x01 []) true := by decide +kernel
theorem test_supervise_timer :
    ((after (exec .superviseTimerExpiry { requesting false false with ctl := (at' .halted).ctl })).lane 3).supervisePending
      = true := by decide +kernel
/-- The first CHECK served after a reset is that of the lowest-numbered lane waiting (R113). -/
theorem test_conversion_start :
    (after (exec .conversionStart (requesting true true))).supply.converter
      = some { lane := 0, cls := .check, void := false } := by decide +kernel
/-- A voltage above 6 000 mV yields 6 000 (R114). -/
theorem test_conversion_clamped :
    ((after (exec (.conversionEnd 7000) (converting (at' .running) .supervise false))).lane 0).lastSample = 6000 := by
  decide +kernel
/-- A second fault on a FAULTED lane keeps the first code (R47, R111). -/
theorem test_overcurrent_second_fault :
    let t := after (exec (.overcurrentTrip 0) (work .running { phase .training with
      state := .faulted, faultCode := some .noTarget, queue := [] } attachJob))
    (t.lane 0).faultCode = some .noTarget ∧ (t.lane 0).power = false := by decide +kernel

end Sys2Proof.Tests
end

section
/-! SUPPORT. Rules of the lane operations that the Loader Link statements share: one lane written twice, the job that is
current, a request that may go out, and the end of a lane's only job. -/

namespace Sys2Proof.Machine

/-! ### Writing one lane -/

/-- The second write of a lane is the one that stays. -/
@[simp] theorem State.setLane_setLane (s : State) (i : LaneId) (a b : Lane) :
    (s.setLane i a).setLane i b = s.setLane i b := by
  simp [State.setLane]

/-- Two changes of one lane are one write. -/
theorem State.modLane_modLane (s : State) (i : LaneId) (f g : Lane → Lane) :
    (s.modLane i f).modLane i g = s.setLane i (g (f (s.lane i))) := by
  simp [State.modLane]

/-! ### The current job -/

/-- The head of the lane's queue is its current job (R57). -/
theorem currentJob_of_head {s : State} {i : LaneId} {n : SlotId} {rest : List SlotId} {j : Job}
    (hq : (s.lane i).queue = n :: rest) (hj : s.slot n = some j) : currentJob s i = some (n, j) := by
  simp [currentJob, hq, hj]

/-- The current job stands at the head of the lane's queue (R57). -/
theorem head_of_currentJob {s : State} {i : LaneId} {n : SlotId} {j : Job} (h : currentJob s i = some (n, j)) :
    (∃ rest, (s.lane i).queue = n :: rest) ∧ s.slot n = some j := by
  unfold currentJob at h
  split at h
  · cases h
  · next m rest hq =>
    split at h
    · cases h
    · next k hk =>
      obtain ⟨rfl, rfl⟩ : m = n ∧ k = j := by simpa using h
      exact ⟨⟨rest, hq⟩, hk⟩

/-- A lane with a current job has jobs in its queue. -/
theorem queue_ne_nil_of_currentJob {s : State} {i : LaneId} {x : SlotId × Job} (h : currentJob s i = some x) :
    (s.lane i).queue ≠ [] := by
  obtain ⟨⟨rest, hq⟩, -⟩ := head_of_currentJob (n := x.1) (j := x.2) h
  simp [hq]

/-- The current job is read from the lane's queue and the slots alone. -/
theorem currentJob_congr {s t : State} {i : LaneId} (hq : (t.lane i).queue = (s.lane i).queue)
    (hs : t.slots = s.slots) : currentJob t i = currentJob s i := by
  unfold currentJob
  rw [hq]
  split
  · rfl
  · rw [State.slot_congr hs]

/-- The retry limit is the current job's (R52). -/
theorem retryLimit_of_head {s : State} {i : LaneId} {n : SlotId} {rest : List SlotId} {j : Job}
    (hq : (s.lane i).queue = n :: rest) (hj : s.slot n = some j) : retryLimit s i = j.spec.retryLimit := by
  simp [retryLimit, currentJob_of_head hq hj]

/-- A lane that has taken up an ATTACH works with its parameters. -/
theorem attachParams_of_head {s : State} {i : LaneId} {n : SlotId} {rest : List SlotId} {j : Job} {p : AttachParams}
    (hq : (s.lane i).queue = n :: rest) (hj : s.slot n = some j) (hp : j.spec.params = .attach p)
    (hstep : (s.lane i).step ≠ .none) : attachParams s i = some p := by
  simp [attachParams, currentJob_of_head hq hj, hp, hstep]

/-! ### Requests -/

/-- A request that may go out does (R21). -/
theorem send_of_canSend {s : State} {i : LaneId} (h : canSend s i = true) (k : ReqKind) (p : List Byte) :
    send s i k p = s.setLane i ((s.lane i).withRequest k p) := by
  unfold send; rw [if_pos h]; rfl

/-- In device FAULT no request goes out (R33). -/
theorem send_of_fault {s : State} {i : LaneId} (h : s.ctl.device = .fault) (k : ReqKind) (p : List Byte) :
    send s i k p = s := by
  unfold send; rw [if_neg]; rw [canSend_iff]; exact fun c => c.1 h

/-- The step that sends IDENTIFY, entered with a current job (R37, R39). -/
theorem enterStep_identify {s : State} {i : LaneId} {st : Step} (hst : st = .attachIdentify ∨ st = .attachIdentifyAgain)
    {x : SlotId × Job} (hj : currentJob s i = some x) :
    enterStep s i st = (send (s.modLane i (fun l => { l with step := st })) i .identify [], none) := by
  have hc : currentJob (s.modLane i (fun l => { l with step := st })) i = some x := by
    rw [← hj]; exact currentJob_congr (by simp) rfl
  unfold enterStep proceed
  rw [hc]
  rcases hst with rfl | rfl <;> simp

/-- Nothing is done for a lane with no step in hand. -/
theorem proceed_of_step_none {s : State} {i : LaneId} (h : (s.lane i).step = .none) : proceed s i = (s, none) := by
  unfold proceed; rw [h]; split <;> rfl

/-- An operation that has not ended the job is done. -/
@[simp] theorem resolveStep_none (i : LaneId) (s : State) : resolveStep i (s, none) = s := rfl

/-! ### The end of a lane's part of a job -/

/-- Once its part of a job has ended, the lane stands as it did, but for the job and the step in hand (R56, R58). -/
theorem closeJob_lane (s : State) (i : LaneId) (n : SlotId) (r : LaneResult) :
    (closeJob s i n r).lane i = { s.lane i with queue := (s.lane i).queue.filter (· != n), step := .none } := by
  unfold closeJob
  dsimp only
  rw [State.lane_congr (retireIfDone_frame _ n).2.2.1 i, State.unblockLane_lane, State.lane_modLane_self,
    State.setPool_lane, State.lane_congr (State.modSlot_frame s n _).2.2.1 i]

/-- A part that ends with a verdict leaves the lane so as well, whatever the slot holds. -/
theorem conclude_lane (s : State) (i : LaneId) (n : SlotId) (v : Verdict) :
    (conclude s i n v).lane i = { s.lane i with queue := (s.lane i).queue.filter (· != n), step := .none } := by
  unfold conclude
  split <;> exact closeJob_lane s i n _

end Sys2Proof.Machine
end

section
/-! CERTIFICATES. The timers of an ATTACH's phases and training (R4, R5, R33 to R37, R39). -/

namespace Sys2Proof.Machine

/-! ### POWERING -/

/-- A CHECK request is placed for a lane whose switch is on, and none for another (R112, R115). -/
theorem Lane.placeCheck_eq (l : Lane) : l.placeCheck = { l with checkPending := l.power || l.checkPending } := by
  unfold Lane.placeCheck
  by_cases h : l.power = true
  · rw [if_pos h, h, Bool.true_or]
  · have hkept : (l.power || l.checkPending) = l.checkPending := by simp [h]
    rw [if_neg h, hkept]

theorem exec_powerSettleExpiry_running {s : State} {i : LaneId} (h : (s.lane i).powerSettle.isSome = true) :
    exec (.powerSettleExpiry i) s = .next (s.setLane i { s.lane i with
      powerSettle := none, checkPending := (s.lane i).power || (s.lane i).checkPending }) := by
  obtain ⟨v, hv⟩ := Option.isSome_iff_exists.mp h
  simp [exec, execPowerSettleExpiry, hv, State.modLane, Lane.placeCheck_eq]

theorem exec_checkWaitExpiry_running {s : State} {i : LaneId} (h : (s.lane i).checkWait.isSome = true) :
    exec (.checkWaitExpiry i) s = .next (s.setLane i { s.lane i with
      checkWait := none, checkPending := (s.lane i).power || (s.lane i).checkPending }) := by
  obtain ⟨v, hv⟩ := Option.isSome_iff_exists.mp h
  simp [exec, execCheckWaitExpiry, hv, State.modLane, Lane.placeCheck_eq]

/-! ### RESETTING -/

section Resetting

variable {s : State} {i : LaneId} {p : AttachParams}

theorem exec_resetPulseExpiry_running (hst : (s.lane i).state = .resetting) (hp : attachParams s i = some p)
    (h : (s.lane i).resetPulse.isSome = true) :
    exec (.resetPulseExpiry i) s = .next (s.setLane i { s.lane i with
      resetPulse := none, resetPin := false, bootSettle := some p.bootSettle
      outputs := (s.lane i).outputsAfter none (some false) none }) := by
  obtain ⟨v, hv⟩ := Option.isSome_iff_exists.mp h
  simp [exec, execResetPulseExpiry, hv, hp, hst, State.modLane, Lane.driveReset, Lane.outputsAfter_eq]

theorem exec_resetPulseExpiry_stopped (h : (s.lane i).resetPulse = none) : exec (.resetPulseExpiry i) s = .next s := by
  simp [exec, execResetPulseExpiry, h]

theorem exec_bootSettleExpiry_running (hst : (s.lane i).state = .resetting) (hp : attachParams s i = some p)
    (h : (s.lane i).bootSettle.isSome = true) (hd : s.ctl.device ≠ .fault) (htx : (s.lane i).tx = .idle) :
    exec (.bootSettleExpiry i) s = .next (s.setLane i { s.lane i with
      bootSettle := none, state := .training, rate := p.startRate, attempts := (s.lane i).attempts + 1
      tx := .pattern [0x55, 0x55, 0x55], resetPin := false
      outputs := (s.lane i).outputsAfter none (some false) none }) := by
  obtain ⟨v, hv⟩ := Option.isSome_iff_exists.mp h
  simp [exec, execBootSettleExpiry, hv, hp, hst, hd, htx, State.modLane, Lane.enterTraining, Lane.driveReset,
    Lane.outputsAfter_eq, Config.trainingPattern, Config.patternChar]

theorem exec_bootSettleExpiry_fault (hst : (s.lane i).state = .resetting) (hp : attachParams s i = some p)
    (h : (s.lane i).bootSettle.isSome = true) (hd : s.ctl.device = .fault) :
    exec (.bootSettleExpiry i) s = .next (s.setLane i { s.lane i with bootSettle := none }) := by
  obtain ⟨v, hv⟩ := Option.isSome_iff_exists.mp h
  simp [exec, execBootSettleExpiry, hv, hp, hst, hd, State.modLane]

theorem exec_bootSettleExpiry_stopped (h : (s.lane i).bootSettle = none) : exec (.bootSettleExpiry i) s = .next s := by
  simp [exec, execBootSettleExpiry, h]

end Resetting

/-! ### The rate gap -/

section RateGap

variable {s : State} {i : LaneId} {r : RateCode}

/-- The gap of an ATTACH that has ended changes the rate alone (R39, R150). -/
theorem exec_rateGapExpiry_ended (h : (s.lane i).rateGap = some r) (hst : (s.lane i).step ≠ .attachRateGap) :
    exec (.rateGapExpiry i) s = .next (s.setLane i { s.lane i with rateGap := none, rate := r }) := by
  simp [exec, execRateGapExpiry, h, hst, State.modLane]

/-- The gap of the ATTACH in hand is followed by IDENTIFY, where one may go out (R39). -/
theorem exec_rateGapExpiry_attach {n : SlotId} {rest : List SlotId} {j : Job} (h : (s.lane i).rateGap = some r)
    (hst : (s.lane i).step = .attachRateGap) (hq : (s.lane i).queue = n :: rest) (hj : s.slot n = some j) :
    exec (.rateGapExpiry i) s = .next (send (s.setLane i
      { s.lane i with rateGap := none, rate := r, step := .attachIdentifyAgain }) i .identify []) := by
  have hc : currentJob (s.modLane i (fun l => { l with rateGap := none, rate := r })) i = some (n, j) :=
    currentJob_of_head (by simpa using hq) hj
  simp only [exec, execRateGapExpiry, h, if_pos hst, enterStep_identify (.inr rfl) hc, resolveStep_none]
  rw [State.modLane_modLane]

end RateGap

/-- Settles O37: each timer's expiry by the lane's state, the step in hand and what a request needs. -/
theorem phaseTimersMoveTheLane : Obligations.PhaseTimersMoveTheLane := by
  refine ⟨⟨fun s i => ⟨exec_powerSettleExpiry_running, ?_, exec_checkWaitExpiry_running, ?_⟩, ?_⟩, ?_⟩
  · intro h
    simp [exec, execPowerSettleExpiry, h]
  · intro h
    simp [exec, execCheckWaitExpiry, h]
  · intro s i n rest j p hst hq hj hp hstep
    have ha : attachParams s i = some p := attachParams_of_head hq hj hp hstep
    exact ⟨exec_resetPulseExpiry_running hst ha, exec_resetPulseExpiry_stopped, exec_bootSettleExpiry_running hst ha,
      exec_bootSettleExpiry_fault hst ha, exec_bootSettleExpiry_stopped⟩
  · intro s i r
    refine ⟨fun h => by simp [exec, execRateGapExpiry, h], exec_rateGapExpiry_ended, ?_⟩
    intro n rest j h hst hq hj
    rw [exec_rateGapExpiry_attach h hst hq hj]
    constructor
    · rintro ⟨ho, htx, hready, hrb, hd⟩
      rw [send_of_canSend ((canSend_iff _ i).mpr (by simp [ho, htx, hready, hrb, hd]))]
      simp
    · rintro (hd | hrb)
      · rw [send_of_fault (by simpa using hd)]
      · rw [send_of_readback _ _ _ _ (by simpa using hrb)]

end Sys2Proof.Machine
end

section
/-! SUPPORT. How the operations of a Lane Engine keep a lane in its row of R27 with a sound request: the conditions of
`Lane.conforms` on one lane, and then operation by operation (R21, R23, R27, R29, R69, R101). -/

namespace Sys2Proof.Machine

/-! ### Lanes that conform with nothing outstanding -/

/-- A lane conforms and has no request outstanding. -/
def Lane.quiet (l : Lane) : Prop := l.conforms = true ∧ l.outstanding = none

/-- The lane states between the take-up of an ATTACH and its session, in which R27 leaves few steps. -/
def LaneState.phase : LaneState → Bool
  | .powering => true
  | .resetting => true
  | .training => true
  | .off => false
  | .ready => false
  | .busy => false
  | .released => false
  | .faulted => false

/-- The parts of `Lane.conforms` as propositions. -/
theorem Lane.conforms_iff (l : Lane) : l.conforms = true ↔
    l.row = true ∧ l.requestSound = true ∧ (l.unlocked = true → l.identity.isSome = true) ∧
      (l.pinned = none ∨ l.outstanding.map Request.kind = some .unlock) ∧ (l.readback = none ∨ l.outstanding = none) := by
  simp only [Lane.conforms, Bool.and_eq_true, Bool.or_eq_true, Bool.not_eq_true', Option.isNone_iff_eq_none, beq_iff_eq,
    and_assoc]
  cases l.unlocked <;> simp

/-- What a lane with nothing outstanding has to meet. -/
theorem Lane.quiet_iff (l : Lane) : l.quiet ↔
    l.outstanding = none ∧ l.row = true ∧ (l.unlocked = true → l.identity.isSome = true) ∧ l.pinned = none := by
  unfold Lane.quiet
  rw [Lane.conforms_iff]
  constructor
  · rintro ⟨⟨hrow, -, hun, hpin, -⟩, ho⟩
    exact ⟨ho, hrow, hun, by simpa [ho] using hpin⟩
  · rintro ⟨ho, hrow, hun, hpin⟩
    exact ⟨⟨hrow, by simp [Lane.requestSound, ho], hun, .inl hpin, .inr ho⟩, ho⟩

/-- A request is outstanding in BUSY alone, is the one of the step in hand, and no readback write is in flight beside it
(R21, R23, R27, R69). -/
theorem Lane.conforms_of_outstanding {l : Lane} {q : Request} (h : l.conforms = true) (ho : l.outstanding = some q) :
    l.state = .busy ∧ (l.power = true ∧ l.resetPin = false ∧ l.modePin = true) ∧ l.step.request = some q.kind ∧
      l.queue ≠ [] ∧ (l.identity.isSome = true ∨ q.kind = .identify) ∧ q.waits < Config.maxWaits ∧ l.readback = none := by
  obtain ⟨hrow, hsound, -, -, hrb⟩ := (Lane.conforms_iff l).mp h
  have hbusy : l.state = .busy := by
    cases hs : l.state <;> simp [Lane.row, hs, ho] at hrow ⊢
  obtain ⟨hp, hr, hm⟩ : l.power = true ∧ l.resetPin = false ∧ l.modePin = true := by
    simpa [Lane.row, hbusy, ho, and_assoc] using hrow
  obtain ⟨hk, hq, hid, hw⟩ : l.step.request = some q.kind ∧ l.queue ≠ [] ∧
      (l.identity.isSome = true ∨ q.kind = .identify) ∧ q.waits < Config.maxWaits := by
    simpa [Lane.requestSound, ho, and_assoc] using hsound
  exact ⟨hbusy, ⟨hp, hr, hm⟩, hk, hq, hid, hw, by simpa [ho] using hrb⟩

theorem Lane.waits_lt_of_outstanding {l : Lane} {q : Request} (h : l.conforms = true) (ho : l.outstanding = some q) :
    q.waits < Config.maxWaits := by
  obtain ⟨-, -, -, -, -, hw, -⟩ := Lane.conforms_of_outstanding h ho
  exact hw

theorem Lane.quiet.not_pinned {l : Lane} (h : l.quiet) : l.pinned = none := by
  obtain ⟨-, -, -, hpin⟩ := (Lane.quiet_iff l).mp h
  exact hpin

/-- A lane whose step sends no request has none outstanding (R21). -/
theorem Lane.quiet_of_step {l : Lane} (h : l.conforms = true) (hstep : l.step.request = none) : l.quiet := by
  refine ⟨h, ?_⟩
  cases ho : l.outstanding with
  | none => rfl
  | some q =>
    obtain ⟨-, -, hk, -⟩ := Lane.conforms_of_outstanding h ho
    simp [hstep] at hk

/-- Outside BUSY nothing is outstanding (R27). -/
theorem Lane.quiet_of_state {l : Lane} (h : l.conforms = true) (hs : l.state ≠ .busy) : l.quiet := by
  refine ⟨h, ?_⟩
  cases ho : l.outstanding with
  | none => rfl
  | some q => exact absurd (Lane.conforms_of_outstanding h ho).1 hs

/-- With an empty queue nothing is outstanding. -/
theorem Lane.quiet_of_queue {l : Lane} (h : l.conforms = true) (hq : l.queue = []) : l.quiet := by
  refine ⟨h, ?_⟩
  cases ho : l.outstanding with
  | none => rfl
  | some q =>
    obtain ⟨-, -, -, hne, -⟩ := Lane.conforms_of_outstanding h ho
    exact absurd hq hne

/-- In POWERING, RESETTING and TRAINING the steps are the one of the phases and, in TRAINING, the first IDENTIFY. -/
theorem Lane.step_of_phase {l : Lane} (h : l.quiet) (hp : l.state.phase = true) :
    l.step = .none ∨ l.step = .attachPhase ∨ l.state = .training ∧ l.step = .attachIdentify := by
  obtain ⟨-, hrow, -, -⟩ := (Lane.quiet_iff l).mp h
  cases hs : l.state <;> simp [LaneState.phase, Lane.row, hs] at hp hrow ⊢ <;> tauto

/-- No job in hand is a step that every lane state allows. -/
theorem Lane.quiet_leaveJob {l : Lane} (h : l.quiet) (q : List SlotId) : ({ l with queue := q, step := .none } : Lane).quiet := by
  rw [Lane.quiet_iff] at h ⊢
  obtain ⟨ho, hrow, hun, hpin⟩ := h
  refine ⟨ho, ?_, hun, hpin⟩
  cases hs : l.state <;> simp_all [Lane.row]

/-- Outside the phases R27 leaves the step free. -/
theorem Lane.quiet_setStep {l : Lane} (h : l.quiet) (hp : l.state.phase = false) (st : Step) :
    ({ l with step := st } : Lane).quiet := by
  rw [Lane.quiet_iff] at h ⊢
  obtain ⟨ho, hrow, hun, hpin⟩ := h
  refine ⟨ho, ?_, hun, hpin⟩
  cases hs : l.state <;> simp_all [Lane.row, LaneState.phase]

theorem Lane.quiet_startJob {l : Lane} (h : l.quiet) : l.startJob.quiet := Lane.quiet_leaveJob h l.queue

/-- The lane may enter POWERING from any state, with its session ended (R34, R35). -/
theorem Lane.quiet_enterPowering {l : Lane} (ho : l.outstanding = none) (hid : l.identity = none)
    (hun : l.unlocked = false) (hpin : l.pinned = none) (settle : Nat) : (l.enterPowering settle).quiet := by
  rw [Lane.quiet_iff]
  exact ⟨ho, by simp [Lane.row, Lane.enterPowering, Lane.driveMode, Lane.driveReset, Lane.drivePower, hid, ho],
    by simp [Lane.enterPowering, Lane.driveMode, Lane.driveReset, Lane.drivePower, hun], hpin⟩

/-- A reset pulse begins on a lane that has power (R36). -/
theorem Lane.quiet_enterResetting {l : Lane} (hpow : l.power = true) (ho : l.outstanding = none) (hid : l.identity = none)
    (hun : l.unlocked = false) (hpin : l.pinned = none) (pulse : Nat) : (l.enterResetting pulse).quiet := by
  rw [Lane.quiet_iff]
  exact ⟨ho, by simp [Lane.row, Lane.enterResetting, Lane.driveMode, Lane.driveReset, hpow, hid, ho],
    by simp [Lane.enterResetting, Lane.driveMode, Lane.driveReset, hun], hpin⟩

theorem Lane.quiet_enterFaulted {l : Lane} (hpin : l.pinned = none) (code : FaultCode) : (l.enterFaulted code).quiet := by
  rw [Lane.quiet_iff]
  exact ⟨rfl, by simp [Lane.row, Lane.enterFaulted, Lane.endSession, Lane.stopPhases, Lane.driveReset],
    by simp [Lane.enterFaulted, Lane.endSession, Lane.stopPhases, Lane.driveReset], hpin⟩

/-- A lane made OFF conforms once its switch is off as well (R43). -/
theorem Lane.quiet_enterOff {l : Lane} (hpow : l.power = false) (hpin : l.pinned = none) : l.enterOff.quiet := by
  rw [Lane.quiet_iff]
  exact ⟨rfl, by simp [Lane.row, Lane.enterOff, Lane.endSession, Lane.stopPhases, Lane.driveMode, Lane.driveReset, hpow],
    by simp [Lane.enterOff, Lane.endSession, Lane.stopPhases, Lane.driveMode, Lane.driveReset], hpin⟩

/-- A FAULTED lane may lose its power (R44, R47). -/
theorem Lane.quiet_powerOff_faulted {l : Lane} (h : l.quiet) (hs : l.state = .faulted) : l.powerOff.quiet := by
  rw [Lane.quiet_iff] at h ⊢
  obtain ⟨ho, hrow, hun, hpin⟩ := h
  refine ⟨ho, ?_, hun, hpin⟩
  simpa [Lane.row, Lane.powerOff, Lane.drivePower, hs] using hrow

/-- In the phases the switch is on and there is no session yet (R27). -/
theorem Lane.no_session_of_phase {l : Lane} (h : l.quiet) (hp : l.state.phase = true) :
    l.identity = none ∧ l.unlocked = false ∧ l.power = true := by
  obtain ⟨-, hrow, hun, -⟩ := (Lane.quiet_iff l).mp h
  have hid : l.identity = none ∧ l.power = true := by
    cases hs : l.state <;> simp [LaneState.phase, Lane.row, hs] at hp hrow ⊢ <;> tauto
  refine ⟨hid.1, ?_, hid.2⟩
  simpa [hid.1] using hun

/-! ### A request starts and goes out again, and jobs join and leave the queue -/

/-- A lane that may send, READY or with IDENTIFY from TRAINING, conforms with the request outstanding, and may pin an
entry where that is UNLOCK (R21, R37, R101). -/
theorem Lane.conforms_startRequest {l : Lane} (h : l.quiet) (hs : l.state = .ready ∨ l.state = .training)
    (hrb : l.readback = none) (hq : l.queue ≠ []) {k : ReqKind} (hk : l.step.request = some k) (payload : List Byte)
    (pin : Option CredId) (hpin : pin = none ∨ k = .unlock) :
    (({ l with pinned := pin } : Lane).startRequest k payload).conforms = true := by
  have hstep := Lane.step_of_phase h
  obtain ⟨ho, hrow, hun, -⟩ := (Lane.quiet_iff l).mp h
  have hline : (l.power = true ∧ l.resetPin = false ∧ l.modePin = true) ∧ (l.identity.isSome = true ∨ k = .identify) := by
    rcases hs with hs | hs
    · simp only [Lane.row, hs, Bool.and_eq_true, Bool.not_eq_true'] at hrow
      tauto
    · have hident : l.step = .attachIdentify := by
        rcases hstep (by simp [hs, LaneState.phase]) with h0 | h0 | ⟨-, h0⟩
        · simp [h0, Step.request] at hk
        · simp [h0, Step.request] at hk
        · exact h0
      simp only [Lane.row, hs, Bool.and_eq_true, Bool.not_eq_true'] at hrow
      rw [hident] at hk
      simp only [Step.request, Option.some.injEq] at hk
      tauto
  obtain ⟨⟨hp, hr, hm⟩, hid⟩ := hline
  rw [Lane.conforms_iff]
  refine ⟨by simp [Lane.row, Lane.startRequest, hp, hr, hm], ?_, hun, ?_, .inl hrb⟩
  · simpa [Lane.requestSound, Lane.startRequest, hk, hq, Config.maxWaits] using hid
  · simpa [Lane.startRequest] using hpin

/-- A request that keeps its kind and fewer than 256 WAITs stays sound, whatever its retries and timer (R22, R23). -/
theorem Lane.conforms_setRequest {l : Lane} {q r : Request} (h : l.conforms = true) (ho : l.outstanding = some q)
    (hk : r.kind = q.kind) (hw : r.waits < Config.maxWaits) : ({ l with outstanding := some r } : Lane).conforms = true := by
  obtain ⟨hbusy, hpins, hstep, hqueue, hid, -, hrb⟩ := Lane.conforms_of_outstanding h ho
  obtain ⟨hrow, -, hun, hpin, -⟩ := (Lane.conforms_iff l).mp h
  rw [Lane.conforms_iff]
  refine ⟨by simpa [Lane.row, hbusy, and_assoc] using hpins, ?_, hun, by simpa [ho, hk] using hpin, .inl hrb⟩
  simpa [Lane.requestSound, hstep, hk, hqueue, hw] using hid

/-- A queue that stays non-empty leaves the request sound (R21, R57). -/
theorem Lane.conforms_setQueue {l : Lane} (h : l.conforms = true) {q : List SlotId} (hq : l.queue ≠ [] → q ≠ []) :
    ({ l with queue := q } : Lane).conforms = true := by
  rw [Lane.conforms_iff] at h ⊢
  obtain ⟨hrow, hsound, hrest⟩ := h
  refine ⟨hrow, ?_, hrest⟩
  cases ho : l.outstanding with
  | none => simp [Lane.requestSound]
  | some r =>
    simp only [Lane.requestSound, ho, Bool.and_eq_true, Bool.not_eq_true', List.isEmpty_eq_false_iff] at hsound ⊢
    obtain ⟨⟨⟨hk, hne⟩, hid⟩, hw⟩ := hsound
    exact ⟨⟨⟨hk, hq hne⟩, hid⟩, hw⟩

end Sys2Proof.Machine
end

section
/-! SUPPORT. The operations of Machine/Lanes.lean keep their lane conforming: what the step in hand calls for, a job taken
up, the end of a job, a lane fault (R27, R32 to R51, R58, R101). -/

namespace Sys2Proof.Machine

/-- After the operation lane `i` conforms, and with a verdict it has nothing outstanding, so that its job may end. -/
def Stepped.keeps (i : LaneId) (p : Stepped) : Prop :=
  (p.1.lane i).conforms = true ∧ (p.2.isSome = true → (p.1.lane i).outstanding = none)

section Keeps

variable {s : State} {i : LaneId}

/-- A lane with nothing outstanding is kept by every verdict. -/
theorem Stepped.keeps.of_quiet (h : (s.lane i).quiet) (v : Option Verdict) : Stepped.keeps i (s, v) :=
  ⟨h.1, fun _ => h.2⟩

/-- An operation without a verdict need only leave the lane conforming. -/
theorem Stepped.keeps.of_conforms (h : (s.lane i).conforms = true) : Stepped.keeps i (s, none) := ⟨h, nofun⟩

/-! ### What the step in hand calls for -/

/-- The request of the step in hand goes out, or waits (R21, R33). -/
theorem send_conforms (h : (s.lane i).quiet) (hq : (s.lane i).queue ≠ []) {k : ReqKind}
    (hk : (s.lane i).step.request = some k) (payload : List Byte) : ((send s i k payload).lane i).conforms = true := by
  unfold send
  split
  · next hc =>
    obtain ⟨-, -, -, hrb, hs⟩ := (canSend_iff s i).mp hc
    have hpin := h.not_pinned
    have hconf := Lane.conforms_startRequest h hs hrb hq hk payload none (.inl rfl)
    rw [← hpin] at hconf
    simpa using hconf
  · exact h.1

/-- The credential step pins an entry only with its UNLOCK (R101, R103). -/
theorem credentialStep_keeps (h : (s.lane i).quiet) (hq : (s.lane i).queue ≠ [])
    (hstep : (s.lane i).step = .attachCredential) (sel : Selector) : (credentialStep s i sel).keeps i := by
  unfold credentialStep
  split
  · exact .of_conforms h.1
  split
  · exact .of_conforms h.1
  split
  · exact .of_quiet h _
  split
  · exact .of_quiet h _
  split
  · next c _ _ hc =>
    refine .of_conforms ?_
    obtain ⟨hd, ho, htx, hrb, hs⟩ := (canSend_iff s i).mp hc
    rw [send_of_canSend ((canSend_iff _ i).mpr (by simpa [ho, htx, hrb] using ⟨hd, hs⟩)), State.lane_setLane_self,
      State.lane_modLane_self]
    exact Lane.conforms_startRequest h hs hrb hq (k := .unlock) (by rw [hstep]; rfl) _ (some c) (.inr rfl)
  · exact .of_conforms h.1

/-- The write step sends WRITE (R64). -/
theorem sendChunk_conforms (h : (s.lane i).quiet) (hq : (s.lane i).queue ≠ [])
    (hk : (s.lane i).step.request = some .write) (n : SlotId) (g : Segment) :
    ((sendChunk s i n g).lane i).conforms = true := by
  unfold sendChunk
  split
  · exact h.1
  split
  · exact h.1
  split
  · exact h.1
  · exact h.1
  · exact send_conforms h hq hk _

/-- The erase step sends ERASE, or goes on to the write step (R63). -/
theorem programErase_conforms (h : (s.lane i).quiet) (hq : (s.lane i).queue ≠ []) {k : Nat}
    (hstep : (s.lane i).step = .programErase k) (n : SlotId) (g : Segment) :
    ((programErase s i n k g).lane i).conforms = true := by
  have hphase : (s.lane i).state.phase = false := by
    by_contra hp
    have := Lane.step_of_phase h (by simpa using hp)
    simp [hstep] at this
  unfold programErase
  dsimp only
  split
  · exact sendChunk_conforms (by simpa using Lane.quiet_setStep h hphase (.programWrite k)) (by simpa using hq)
      (by simp [Step.request]) n g
  · exact send_conforms h hq (by rw [hstep]; rfl) _

/-- What the step in hand calls for keeps a lane with nothing outstanding conforming. -/
theorem proceed_keeps (h : (s.lane i).quiet) : (proceed s i).keeps i := by
  unfold proceed
  split
  · exact .of_conforms h.1
  next n j hj =>
  have hq : (s.lane i).queue ≠ [] := queue_ne_nil_of_currentJob hj
  have sends : ∀ (k : ReqKind) (payload : List Byte), (s.lane i).step.request = some k →
      Stepped.keeps i (send s i k payload, none) := fun k p hk => .of_conforms (send_conforms h hq hk p)
  dsimp only
  split
  case h_1 | h_2 | h_3 | h_4 => exact .of_conforms h.1
  case h_5 hst | h_6 hst | h_10 hst => exact sends _ _ (by rw [hst]; rfl)
  case h_7 hst | h_9 hst | h_16 hst | h_17 hst =>
    split
    · exact sends _ _ (by rw [hst]; rfl)
    · exact .of_conforms h.1
  case h_8 hst =>
    split
    · exact credentialStep_keeps h hq hst _
    · exact .of_conforms h.1
  case h_11 hst | h_14 hst | h_15 hst =>
    split
    · exact .of_conforms h.1
    · exact sends _ _ (by rw [hst]; rfl)
  case h_12 hst =>
    split
    · exact .of_conforms h.1
    · exact .of_conforms (programErase_conforms h hq hst _ _)
  case h_13 hst =>
    split
    · exact .of_conforms h.1
    · exact .of_conforms (sendChunk_conforms h hq (by rw [hst]; rfl) _ _)

/-- A step is taken in hand on a lane that conforms with it. -/
theorem enterStep_keeps {st : Step} (h : ({ s.lane i with step := st } : Lane).quiet) : (enterStep s i st).keeps i :=
  proceed_keeps (by simpa using h)

/-- Outside the phases any step may be taken in hand. -/
theorem enterStep_keeps_of_session (h : (s.lane i).quiet) (hp : (s.lane i).state.phase = false) (st : Step) :
    (enterStep s i st).keeps i := enterStep_keeps (Lane.quiet_setStep h hp st)

/-- The unlock decision keeps a READY lane conforming (R40). -/
theorem unlockDecision_keeps (h : (s.lane i).quiet) (hs : (s.lane i).state = .ready) (hq : (s.lane i).queue ≠ [])
    (p : AttachParams) : (unlockDecision s i p).keeps i := by
  have hcred : ∀ sel, (credentialStep (s.modLane i (fun l => { l with step := .attachCredential })) i sel).keeps i :=
    fun sel => credentialStep_keeps (by simpa using Lane.quiet_setStep h (by rw [hs]; rfl) .attachCredential)
      (by simpa using hq) (by simp) sel
  unfold unlockDecision
  split
  · exact .of_quiet h _
  split
  · exact .of_quiet h _
  split
  · exact .of_quiet h _
  · exact hcred _
  · exact hcred _

/-- The rate decision keeps a READY lane conforming (R38). -/
theorem rateDecision_keeps (h : (s.lane i).quiet) (hs : (s.lane i).state = .ready) (hq : (s.lane i).queue ≠ [])
    (p : AttachParams) : (rateDecision s i p).keeps i := by
  unfold rateDecision
  split
  · exact .of_quiet h _
  split
  · exact unlockDecision_keeps h hs hq p
  split
  · exact .of_quiet h _
  · exact .of_conforms (send_conforms (by simpa using Lane.quiet_setStep h (by rw [hs]; rfl) .attachSetRate)
      (by simpa using hq) (by simp [Step.request]) _)

/-! ### Taking up a job -/

theorem attachTakeUp_quiet (p : AttachParams) : ((attachTakeUp s i p).lane i).quiet := by
  unfold attachTakeUp
  rw [State.lane_modLane_self, releasePin_lane, if_pos rfl]
  dsimp only
  split
  · next hp =>
    refine Lane.quiet_enterResetting ?_ rfl rfl rfl rfl _
    exact hp
  · exact Lane.quiet_enterPowering rfl rfl rfl rfl _

/-- The lane whose own switch goes off (R110). -/
theorem switchOff_lane_self (s : State) (i : LaneId) :
    (switchOff s i).lane i = if (s.lane i).power then (s.lane i).powerOff else s.lane i := by
  simp [switchOff_lane]

/-- A lane made OFF, its switch last (R43, R152). -/
theorem Lane.quiet_enterOff_powerOff {l : Lane} (hpin : l.pinned = none) : l.enterOff.powerOff.quiet := by
  have h : (l.powerOff).enterOff.quiet := Lane.quiet_enterOff (by simp [Lane.powerOff, Lane.drivePower]) hpin
  rw [Lane.quiet_iff] at h ⊢
  exact h

/-- A DETACH without RUN leaves the lane OFF with its switch off (R43). -/
theorem detachOff_quiet (s : State) (i : LaneId) : ((detachOff s i).lane i).quiet := by
  unfold detachOff
  rw [switchOff_lane_self, State.lane_modLane_self, releasePin_lane, if_pos rfl]
  split
  · exact Lane.quiet_enterOff_powerOff rfl
  · next hp => exact Lane.quiet_enterOff (by simpa [Lane.enterOff, Lane.endSession, Lane.stopPhases, Lane.driveMode,
      Lane.driveReset] using hp) rfl

/-- The first step of a job that works inside a session, on a READY lane (R62, R81). -/
theorem firstStep_keeps (h : (s.lane i).quiet) (hp : (s.lane i).state.phase = false) (n : SlotId) (j : Job) :
    (firstStep s i n j).keeps i := by
  unfold firstStep
  split
  case h_2 =>
    split
    · exact .of_quiet h _
    · exact enterStep_keeps_of_session (s := fillWindow s i n j) h hp _
  case h_1 | h_3 | h_4 | h_5 => exact enterStep_keeps_of_session h hp _
  all_goals exact .of_quiet h _

/-- A lane in a session is READY or BUSY (R32). -/
theorem sessionMissing_none {l : Lane} (h : sessionMissing l = none) : l.state.phase = false := by
  cases hs : l.state <;> simp [sessionMissing, hs, LaneState.phase] at h ⊢

theorem sessionJobTakeUp_keeps (h : (s.lane i).quiet) (n : SlotId) (j : Job) : (sessionJobTakeUp s i n j).keeps i := by
  unfold sessionJobTakeUp
  split
  · exact .of_quiet h _
  next hs =>
  split
  · exact .of_quiet h _
  · exact firstStep_keeps h (sessionMissing_none hs) n j

/-- A lane with nothing outstanding takes up any job and conforms (R30, R32). -/
theorem takeUp_keeps (h : (s.lane i).quiet) (n : SlotId) : (takeUp s i n).keeps i := by
  unfold takeUp
  split
  · exact .of_quiet h _
  next j _ =>
  have h1 : ((s.modLane i Lane.startJob).lane i).quiet := by simpa using Lane.quiet_startJob h
  dsimp only
  split
  case h_1 => exact .of_quiet (attachTakeUp_quiet _) _
  case h_2 =>
    split
    · split
      · next hs => exact enterStep_keeps_of_session h1 (by rw [hs]; rfl) _
      · exact .of_quiet h1 _
    · exact .of_quiet (detachOff_quiet _ i) _
  case h_3 | h_4 | h_5 | h_6 | h_7 => exact sessionJobTakeUp_keeps h1 n j
  all_goals exact .of_quiet h1 _

/-! ### The end of a job and the next one -/

theorem conclude_quiet (h : (s.lane i).quiet) (n : SlotId) (v : Verdict) : ((conclude s i n v).lane i).quiet := by
  rw [conclude_lane]
  exact Lane.quiet_leaveJob h _

/-- The lane whose queue moves on conforms, however many jobs end at once (R58). -/
theorem settle_conforms (fuel : Nat) (h : (s.lane i).quiet) : ((settle fuel s i).lane i).conforms = true := by
  induction fuel generalizing s with
  | zero => exact h.1
  | succ fuel ih =>
    unfold settle
    split
    · exact h.1
    next n _ _ =>
    have hcur : ((becomeCurrent s i n).lane i).quiet := by
      unfold becomeCurrent
      rw [State.lane_modLane_self, State.lane_congr (State.modSlot_frame s n _).2.2.1 i]
      exact h
    dsimp only
    split
    · exact hcur.1
    have htake := takeUp_keeps hcur n
    split
    · next heq => rw [heq] at htake; exact htake.1
    · next heq => rw [heq] at htake; exact ih (conclude_quiet ⟨htake.1, htake.2 rfl⟩ n _)

theorem nextJob_conforms (h : (s.lane i).quiet) : ((nextJob s i).lane i).conforms = true := settle_conforms _ h

theorem finishLane_conforms (h : (s.lane i).quiet) (v : Verdict) : ((finishLane s i v).lane i).conforms = true := by
  unfold finishLane
  split
  · exact h.1
  · exact nextJob_conforms (conclude_quiet h _ v)

/-- An operation that keeps the lane does so when it is brought to its end. -/
theorem resolveStep_conforms {p : Stepped} (h : p.keeps i) : ((resolveStep i p).lane i).conforms = true := by
  unfold resolveStep
  split
  · exact h.1
  · next v hv => exact finishLane_conforms ⟨h.1, h.2 (by simp [hv])⟩ v

/-! ### Lane faults -/

/-- A pending event is no part of R27. -/
theorem offer_conforms (c : Candidate) (k : LaneId) : ((offer s c).lane k).conforms = (s.lane k).conforms := by
  rcases offer_lane s c k with h | ⟨-, h⟩
  · rw [h]
  · rw [h]; rfl

/-- A lane made FAULTED conforms, its switch on or off (R44). -/
theorem faultedLane_quiet (s : State) (i : LaneId) (code : FaultCode) :
    ((if code.isSupply then switchOff ((releasePin s i).modLane i (fun k => k.enterFaulted code)) i
      else (releasePin s i).modLane i (fun k => k.enterFaulted code)).lane i).quiet := by
  have hf : (({ s.lane i with pinned := none } : Lane).enterFaulted code).quiet := Lane.quiet_enterFaulted rfl code
  have hl : ((releasePin s i).modLane i (fun k => k.enterFaulted code)).lane i
      = ({ s.lane i with pinned := none } : Lane).enterFaulted code := by
    rw [State.lane_modLane_self, releasePin_lane, if_pos rfl]
  split
  · rw [switchOff_lane_self, hl]
    split
    · exact Lane.quiet_powerOff_faulted hf rfl
    · exact hf
  · rw [hl]; exact hf

/-- Every lane fault keeps its lane conforming (R44, R47). -/
theorem faultLane_conforms (h : (s.lane i).conforms = true) (code : FaultCode) (refused : Bool) :
    ((faultLane s i code refused).lane i).conforms = true := by
  unfold faultLane
  split
  · next hs =>
    split
    · rw [switchOff_lane_self]
      split
      · exact (Lane.quiet_powerOff_faulted (Lane.quiet_of_state h (by simp [hs])) hs).1
      · exact h
    · exact h
  · have hq := faultedLane_quiet s i code
    dsimp only
    split
    · refine nextJob_conforms ?_
      rw [closeJob_lane]
      exact Lane.quiet_leaveJob hq _
    · unfold raiseEvent
      rw [offer_conforms, State.lane_modLane_self]
      exact hq.1

theorem laneFault_conforms (h : (s.lane i).conforms = true) (code : FaultCode) :
    ((laneFault s i code).lane i).conforms = true := faultLane_conforms h code false

/-- A retransmission repeats the request (R22, R24). -/
theorem Lane.conforms_retransmit {l : Lane} {q : Request} (h : l.conforms = true) (ho : l.outstanding = some q) :
    (l.retransmit q).conforms = true := by
  have hw := Lane.waits_lt_of_outstanding h ho
  exact Lane.conforms_setRequest (r := { q with retries := q.retries + 1, timer := none }) h ho rfl hw

theorem retransmitAtOnce_conforms (h : (s.lane i).conforms = true) : ((retransmitAtOnce s i).lane i).conforms = true := by
  unfold retransmitAtOnce
  split
  · exact h
  next q hq =>
  split
  · simpa using Lane.conforms_retransmit h hq
  · exact h

end Keeps

end Sys2Proof.Machine
end

section
/-! SUPPORT. The answers of Machine/Link.lean keep their lane conforming: good answers, refusals, WAITs and readback writes
(R25, R37 to R42, R61 to R71, R104, R151). -/

namespace Sys2Proof.Machine

/-! ### A lane whose request has been answered -/

/-- The lane is READY on a live line with nothing outstanding, no pin and a job in its queue; whether it holds an identity
record is left open, since the first HELLO brings it (R25, R27, R37). -/
def Lane.lineReady (l : Lane) : Prop :=
  l.state = .ready ∧ l.power = true ∧ l.resetPin = false ∧ l.modePin = true ∧ l.outstanding = none ∧ l.pinned = none ∧
    l.queue ≠ []

/-- The lane is READY in its session, and a job is in its queue. -/
def Lane.inSession (l : Lane) : Prop := l.lineReady ∧ l.identity.isSome = true

theorem Lane.inSession.quiet {l : Lane} (h : l.inSession) : l.quiet := by
  obtain ⟨⟨hs, hp, hr, hm, ho, hpin, -⟩, hid⟩ := h
  rw [Lane.quiet_iff]
  exact ⟨ho, by simp [Lane.row, hs, hp, hr, hm, hid, ho], fun _ => hid, hpin⟩

theorem Lane.inSession.ready {l : Lane} (h : l.inSession) : l.state = .ready := by
  obtain ⟨⟨hs, -⟩, -⟩ := h
  exact hs

theorem Lane.inSession.queue_ne_nil {l : Lane} (h : l.inSession) : l.queue ≠ [] := by
  obtain ⟨⟨-, -, -, -, -, -, hq⟩, -⟩ := h
  exact hq

/-- A lane in its session may take any step in hand. -/
theorem enterStep_keeps_of_inSession {s : State} {i : LaneId} (h : (s.lane i).inSession) (st : Step) :
    (enterStep s i st).keeps i := enterStep_keeps_of_session h.quiet (by rw [h.ready]; rfl) st

/-- The end of a request leaves the lane READY on a live line (R25). -/
theorem Lane.lineReady_endRequest {l : Lane} {q : Request} (h : l.conforms = true) (ho : l.outstanding = some q) :
    ({ l with pinned := none } : Lane).endRequest.lineReady := by
  obtain ⟨-, ⟨hp, hr, hm⟩, -, hq, -⟩ := Lane.conforms_of_outstanding h ho
  exact ⟨rfl, hp, hr, hm, rfl, rfl, hq⟩

theorem Lane.lineReady_storeIdentity {l : Lane} (h : l.lineReady) (d : Identity) : (l.storeIdentity d).inSession := ⟨h, rfl⟩

theorem Lane.inSession_setLevel {l : Lane} (h : l.inSession) (level : Byte) : (l.setLevel level).inSession :=
  ⟨h.1, by simpa [Lane.setLevel] using h.2⟩

theorem Lane.inSession_spendAttempt {l : Lane} (h : l.inSession) : l.spendAttempt.inSession :=
  ⟨h.1, by simpa [Lane.spendAttempt] using h.2⟩

theorem Lane.inSession_advanceCursor {l : Lane} (h : l.inSession) (g : Segment) (len : Nat) :
    (l.advanceCursor g len).inSession := by
  unfold Lane.advanceCursor
  split
  · exact h
  split
  · exact h
  · exact h

/-- The ACK to START leaves a lane that conforms in RELEASED (R42). -/
theorem Lane.quiet_enterReleased {l : Lane} (h : l.lineReady) : l.enterReleased.quiet := by
  obtain ⟨-, hp, hr, -, -, hpin, -⟩ := h
  rw [Lane.quiet_iff]
  exact ⟨rfl, by simp [Lane.row, Lane.enterReleased, Lane.endSession, Lane.driveMode, hp, hr],
    by simp [Lane.enterReleased, Lane.endSession, Lane.driveMode], hpin⟩

/-- With nothing outstanding a readback write may begin and end (R69). -/
theorem Lane.quiet_setReadback {l : Lane} (h : l.quiet) (out : Option HostWriteOut) :
    ({ l with readback := out } : Lane).quiet := by
  rw [Lane.quiet_iff] at h ⊢
  exact h

section Link

variable {s : State} {i : LaneId}

theorem writeAcked_inSession (h : (s.lane i).inSession) (n : SlotId) (g : Segment) (chunk : List Byte) :
    ((writeAcked s i n g chunk).lane i).inSession := by
  have hc := Lane.inSession_advanceCursor h g chunk.length
  unfold writeAcked
  dsimp only
  split
  · rw [State.lane_modLane_self]; exact hc
  · unfold consumeBlock
    split
    · rw [State.lane_modLane_self]; exact hc
    · rw [State.setPool_lane, State.lane_modLane_self]; exact hc

/-- The usual effect of a good answer, but for START's, leaves the lane READY in its session: a HELLO brings the identity
record, and every other answer meets one (R37 to R42, R61 to R70). -/
theorem answerEffect_inSession (h : (s.lane i).lineReady) {q : Request} (hk : (s.lane i).step.request = some q.kind)
    (hid : (s.lane i).identity.isSome = true ∨ q.kind = .identify) (hstep : (s.lane i).step ≠ .detachStart) (n : SlotId)
    (j : Job) (payload : List Byte) : ((answerEffect s i n j q payload).lane i).inSession := by
  by_cases hident : (s.lane i).step = .attachIdentify ∨ (s.lane i).step = .attachIdentifyAgain
  · rcases hident with hst | hst <;>
      simpa [answerEffect, hst] using Lane.lineReady_storeIdentity h (parseIdentity payload)
  have hs : (s.lane i).inSession := by
    refine ⟨h, hid.resolve_right fun hq => hident ?_⟩
    rw [hq] at hk
    cases hst : (s.lane i).step <;> simp [hst, Step.request] at hk ⊢
  have kept : ∀ f : Lane → Lane, (f (s.lane i)).inSession → ((s.modLane i f).lane i).inSession := by
    intro f hf
    rwa [State.lane_modLane_self]
  unfold answerEffect
  dsimp only
  split
  case h_1 hst => exact absurd (.inl hst) hident
  case h_2 hst => exact absurd (.inr hst) hident
  case h_3 =>
    split
    · exact kept _ hs
    · exact hs
  case h_4 | h_10 => exact kept _ hs
  case h_5 hst => exact absurd hst hstep
  case h_6 | h_7 | h_8 => exact kept _ (Lane.inSession_setLevel hs _)
  case h_9 =>
    split
    · exact hs
    · exact writeAcked_inSession hs n _ _
  case h_11 =>
    split
    · exact kept _ (Lane.inSession_setLevel hs _)
    · exact hs
  all_goals exact hs

/-- The next segment of a PROGRAM, or its end (R62). -/
theorem nextSegment_keeps (h : (s.lane i).inSession) (j : Job) (k : Nat) : (nextSegment s i j k).keeps i := by
  have h1 : ((s.modLane i (fun l => { l with crc := crc32Init })).lane i).inSession := by
    rw [State.lane_modLane_self]; exact h
  unfold nextSegment
  dsimp only
  split
  · exact enterStep_keeps_of_inSession h1 _
  · exact .of_quiet h1.quiet _

theorem segmentWritten_keeps (h : (s.lane i).inSession) (j : Job) (k : Nat) (g : Segment) :
    (segmentWritten s i j k g).keeps i := by
  unfold segmentWritten
  split
  · exact .of_quiet h.quiet _
  split
  · exact enterStep_keeps_of_inSession h _
  · exact nextSegment_keeps h j k

/-- A lane in its session goes on after a good answer (R37 to R42, R61 to R70). -/
theorem afterAnswer_keeps (h : (s.lane i).inSession) (n : SlotId) (j : Job) (before : Lane) (q : Request)
    (payload : List Byte) : (afterAnswer s i n j before q payload).keeps i := by
  have hquiet := h.quiet
  have enters : ∀ st : Step, (enterStep s i st).keeps i := enterStep_keeps_of_inSession h
  unfold afterAnswer
  dsimp only
  split
  case h_1 =>
    split
    · exact rateDecision_keeps hquiet h.ready h.queue_ne_nil _
    · exact .of_quiet hquiet _
  case h_2 =>
    split
    · exact unlockDecision_keeps hquiet h.ready h.queue_ne_nil _
    · exact .of_quiet hquiet _
  case h_7 =>
    split
    · exact .of_quiet hquiet _
    split
    · exact enters _
    split
    · exact enters _
    · exact .of_quiet hquiet _
  case h_8 => exact enters _
  case h_9 =>
    split
    · exact .of_quiet hquiet _
    next g _ =>
    have hfill : ∀ c : Prop, ∀ _ : Decidable c, ((if c then s else fillWindow s i n j).lane i).inSession := by
      intro c _
      split
      · exact h
      · exact h
    split
    · exact enterStep_keeps_of_inSession (hfill _ _) _
    · exact segmentWritten_keeps (hfill _ _) j _ g
  case h_10 =>
    split
    · exact .of_quiet hquiet _
    split
    · exact nextSegment_keeps h j _
    · exact .of_quiet hquiet _
  case h_11 =>
    split
    · exact .of_quiet hquiet _
    split
    · split
      · exact enters _
      · exact .of_quiet hquiet _
    · exact .of_quiet hquiet _
  case h_12 off _ =>
    refine .of_conforms ?_
    rw [State.lane_modLane_self]
    exact (Lane.quiet_setReadback (Lane.quiet_setStep hquiet (by rw [h.1.1]; rfl) (.readbackWrite off))
      (some { addr := readbackAddr j.spec i off, bytes := payload })).1
  all_goals exact .of_quiet hquiet _

/-- A good answer keeps the lane conforming: the request has ended, and what follows may start the next (R25). -/
theorem goodAnswer_keeps {q : Request} (h : (s.lane i).conforms = true) (ho : (s.lane i).outstanding = some q)
    (n : SlotId) (j : Job) (payload : List Byte) : (goodAnswer s i n j q payload).keeps i := by
  obtain ⟨-, -, hk, -, hid, -, -⟩ := Lane.conforms_of_outstanding h ho
  have hready := Lane.lineReady_endRequest h ho
  have hlane : ((releasePin s i).modLane i Lane.endRequest).lane i = ({ s.lane i with pinned := none } : Lane).endRequest := by
    rw [State.lane_modLane_self, releasePin_lane, if_pos rfl]
  unfold goodAnswer
  dsimp only
  rw [← hlane] at hready
  have hk1 : (((releasePin s i).modLane i Lane.endRequest).lane i).step.request = some q.kind := by rw [hlane]; exact hk
  by_cases hstart : (s.lane i).step = .detachStart
  · have hq : ((answerEffect ((releasePin s i).modLane i Lane.endRequest) i n j q payload).lane i).quiet := by
      have hst : (((releasePin s i).modLane i Lane.endRequest).lane i).step = .detachStart := by rw [hlane]; exact hstart
      simp only [answerEffect, hst]
      rw [State.lane_modLane_self]
      exact Lane.quiet_enterReleased hready
    split
    · exact .of_quiet hq _
    split
    · exact .of_quiet hq _
    · simp only [afterAnswer, hstart]
      exact .of_quiet hq _
  · have hs := answerEffect_inSession hready hk1 (by rw [hlane]; exact hid) (by rw [hlane]; exact hstart) n j payload
    split
    · exact .of_quiet hs.quiet _
    split
    · exact .of_quiet hs.quiet _
    · exact afterAnswer_keeps hs n j _ q payload

/-- A refusal of a request other than IDENTIFY leaves the lane READY in its session (R25). -/
theorem refuse_keeps {q : Request} (h : (s.lane i).conforms = true) (ho : (s.lane i).outstanding = some q)
    (hk : q.kind ≠ .identify) (j : Job) (reason : NakReason) : (refuse s i j q reason).keeps i := by
  obtain ⟨-, -, -, -, hid, -, -⟩ := Lane.conforms_of_outstanding h ho
  have hs : ({ s.lane i with pinned := none } : Lane).endRequest.inSession :=
    ⟨Lane.lineReady_endRequest h ho, hid.resolve_right hk⟩
  unfold refuse
  dsimp only
  refine .of_quiet ?_ _
  split
  · rw [State.lane_modLane_self, State.lane_modLane_self, releasePin_lane, if_pos rfl]
    exact (Lane.inSession_spendAttempt hs).quiet
  · rw [State.lane_modLane_self, releasePin_lane, if_pos rfl]
    exact hs.quiet

/-- A WAIT is counted up to the 256th, which faults the lane (R23). -/
theorem takeWait_conforms {q : Request} (h : (s.lane i).conforms = true) (ho : (s.lane i).outstanding = some q)
    (estimate : Nat) : ((takeWait s i q estimate).lane i).conforms = true := by
  unfold takeWait
  split
  · exact laneFault_conforms h _
  · next hw =>
    dsimp only
    rw [State.lane_modLane_self]
    exact Lane.conforms_setRequest h ho rfl (by simpa using hw)

/-- A good frame, whatever it answers, keeps the lane conforming (R9). -/
theorem takeFrame_conforms (h : (s.lane i).conforms = true) (seq kind : Byte) (payload : List Byte) :
    ((takeFrame s i seq kind payload).lane i).conforms = true := by
  unfold takeFrame
  split
  case h_2 => exact h
  next q n j ho _ =>
  split
  · exact h
  split
  · exact laneFault_conforms h _
  · exact takeWait_conforms h ho _
  · split
    · exact retransmitAtOnce_conforms h
    split
    · exact faultLane_conforms h _ _
    · next hk => exact resolveStep_conforms (refuse_keeps h ho hk j _)
  · split
    · exact laneFault_conforms h _
    · exact resolveStep_conforms (goodAnswer_keeps h ho n j payload)

theorem spoilFrame_conforms (h : (s.lane i).conforms = true) : ((spoilFrame s i).lane i).conforms = true := by
  refine retransmitAtOnce_conforms ?_
  rw [State.lane_modLane_self]
  exact h

/-! ### Readback writes -/

theorem readbackWritten_keeps (h : (s.lane i).quiet) (hp : (s.lane i).state.phase = false) (j : Job) (off : Nat) :
    (readbackWritten s i j off).keeps i := by
  have h1 : ((s.modLane i (fun l => { l with readback := none })).lane i).quiet := by
    rw [State.lane_modLane_self]; exact Lane.quiet_setReadback h none
  unfold readbackWritten
  dsimp only
  split
  · split
    · exact enterStep_keeps_of_session h1 (by rw [State.lane_modLane_self]; exact hp) _
    · exact .of_quiet h1 _
  · exact .of_quiet h1 _

/-- The end of an ended job's readback write: what has waited for it goes out (R69). -/
theorem endedWriteOut_conforms (h : (s.lane i).conforms = true) (hrb : (s.lane i).readback ≠ none) :
    ((endedWriteOut s i).lane i).conforms = true := by
  obtain ⟨-, -, -, -, hor⟩ := (Lane.conforms_iff _).mp h
  have hq : (s.lane i).quiet := ⟨h, hor.resolve_left hrb⟩
  have h1 : ((s.modLane i (fun l => { l with readback := none })).lane i).quiet := by
    rw [State.lane_modLane_self]; exact Lane.quiet_setReadback hq none
  unfold endedWriteOut
  dsimp only
  split
  · exact resolveStep_conforms (proceed_keeps h1)
  · exact h1.1

end Link

end Sys2Proof.Machine
end

section
/-! CERTIFICATES. Every command keeps every lane conforming (R21, R23, R27, R29, R69, R101): first the commands of one lane,
then those that place, abort or end jobs, and those that touch no lane. -/

namespace Sys2Proof.Machine

/-- Wherever a command leads on, every lane conforms. -/
def Conforming (r : Result) : Prop := ∀ t : State, r = .next t → t.lanesConform

theorem Conforming.next {t : State} (h : t.lanesConform) : Conforming (.next t) := by
  intro u hu
  obtain rfl : t = u := by simpa using hu
  exact h

/-- The same lanes conform. -/
theorem lanesConform_of_lanes {s t : State} (h : s.lanesConform) (hl : t.lanes = s.lanes) : t.lanesConform := by
  intro k
  rw [State.lane_congr hl k]
  exact h k

/-- Lanes that differ at most in a pending event conform alike. -/
theorem lanesConform_of_conforms_eq {s t : State} (h : s.lanesConform)
    (hl : ∀ k, (t.lane k).conforms = (s.lane k).conforms) : t.lanesConform := fun k => (hl k).trans (h k)

/-- An operation of one lane's engine need only keep that lane. -/
theorem lanesConform_of_local {s t : State} {i : LaneId} (h : s.lanesConform) (hl : LaneLocal i s t)
    (hi : (t.lane i).conforms = true) : t.lanesConform := by
  intro k
  by_cases hk : k = i
  · rw [hk]; exact hi
  · rw [hl.2.2 k hk]; exact h k

theorem lanesConform_modLane {s : State} {i : LaneId} {f : Lane → Lane} (h : s.lanesConform)
    (hi : (f (s.lane i)).conforms = true) : (s.modLane i f).lanesConform :=
  lanesConform_of_local h (modLane_local s i f) (by rwa [State.lane_modLane_self])

theorem lanesConform_laneFault {s : State} (h : s.lanesConform) (i : LaneId) (code : FaultCode) :
    (laneFault s i code).lanesConform :=
  lanesConform_of_local h (laneFault_local s i code) (laneFault_conforms (h i) code)

theorem lanesConform_resolveStep {s : State} {i : LaneId} {p : Stepped} (h : s.lanesConform) (hl : LaneLocal i s p.1)
    (hp : p.keeps i) : (resolveStep i p).lanesConform :=
  lanesConform_of_local h (resolveStep_local hl) (resolveStep_conforms hp)

theorem lanesConform_finishLane {s : State} {i : LaneId} (h : s.lanesConform) (ho : (s.lane i).outstanding = none)
    (v : Verdict) : (finishLane s i v).lanesConform :=
  lanesConform_of_local h (finishLane_local s i v) (finishLane_conforms ⟨h i, ho⟩ v)

theorem lanesConform_nextJob {s : State} {i : LaneId} (h : s.lanesConform) (ho : (s.lane i).outstanding = none) :
    (nextJob s i).lanesConform :=
  lanesConform_of_local h (nextJob_local s i) (nextJob_conforms ⟨h i, ho⟩)

/-- What each element of a list keeps, the whole fold keeps. -/
theorem lanesConform_foldl {α : Type} {f : State → α → State} (hf : ∀ s a, s.lanesConform → (f s a).lanesConform)
    (l : List α) {s : State} (h : s.lanesConform) : (l.foldl f s).lanesConform := by
  induction l generalizing s with
  | nil => exact h
  | cons a l ih => exact ih (hf s a h)

/-- A readback write's end and the next READ are the lane's own. -/
theorem readbackWritten_local (s : State) (i : LaneId) (j : Job) (off : Nat) :
    LaneLocal i s (readbackWritten s i j off).1 := by
  have h1 := modLane_local s i (fun l => { l with readback := none })
  unfold readbackWritten
  dsimp only
  split
  · split
    · exact h1.trans (enterStep_local _ i _)
    · exact h1
  · exact h1

/-- The start of the response timer leaves the request sound (R22). -/
theorem Lane.conforms_startTimer {l : Lane} (h : l.conforms = true) (ms : Nat) :
    ({ l with outstanding := l.outstanding.map (fun q => { q with timer := some ms }) } : Lane).conforms = true := by
  cases ho : l.outstanding with
  | none =>
    have hsame : ({ l with outstanding := none } : Lane) = l := by rw [← ho]
    rw [Option.map_none, hsame]
    exact h
  | some q =>
    have hw := Lane.waits_lt_of_outstanding h ho
    exact Lane.conforms_setRequest h ho rfl hw

/-- A request waits while another is outstanding (R21). -/
theorem send_of_outstanding {s : State} {i : LaneId} (h : (s.lane i).outstanding ≠ none) (k : ReqKind) (p : List Byte) :
    send s i k p = s := by
  unfold send
  rw [if_neg]
  rw [canSend_iff]
  exact fun c => h c.2.1

/-- While a request is outstanding no chunk goes out (R21, R64). -/
theorem proceed_write_of_outstanding {s : State} {i : LaneId} {k : Nat} (hst : (s.lane i).step = .programWrite k)
    (ho : (s.lane i).outstanding ≠ none) : proceed s i = (s, none) := by
  have hchunk : ∀ n g, sendChunk s i n g = s := by
    intro n g
    unfold sendChunk
    split
    · rfl
    split
    · rfl
    split
    · rfl
    · rfl
    · exact send_of_outstanding ho _ _
  unfold proceed
  split
  · rfl
  dsimp only
  rw [hst]
  dsimp only
  split
  · rfl
  · rw [hchunk]

theorem Lane.conforms_placeCheck {l : Lane} (hl : l.conforms = true) : l.placeCheck.conforms = true := by
  rw [Lane.placeCheck_eq]
  exact hl

/-- A training attempt begins in RESETTING, once the reset pulse is over (R36). -/
theorem Lane.quiet_enterTraining {l : Lane} (hl : l.quiet) (hs : l.state = .resetting)
    (start : RateCode) : ((l.enterTraining start).driveReset false).quiet := by
  obtain ⟨ho, hrow, hun, hpin⟩ := (Lane.quiet_iff _).mp hl
  refine (Lane.quiet_iff _).mpr ⟨ho, ?_, hun, hpin⟩
  simp only [Lane.row, Lane.driveReset, Lane.enterTraining, hs, Bool.and_eq_true, Bool.or_eq_true] at hrow ⊢
  tauto

section Commands

variable {s : State} (h : s.lanesConform)
include h

/-! ### The Loader Link -/

theorem execChunkSend_conforming (i : LaneId) : Conforming (execChunkSend i s) := by
  unfold execChunkSend
  split
  · next k hst =>
    by_cases ho : (s.lane i).outstanding = none
    · exact .next (lanesConform_resolveStep h (proceed_local s i) (proceed_keeps ⟨h i, ho⟩))
    · rw [proceed_write_of_outstanding hst ho]
      exact .next h
  · exact .next h

theorem execReadbackWriteEnd_conforming (e : Epoch) (i : LaneId) (r : HostWrite) :
    Conforming (execReadbackWriteEnd e i r s) := by
  unfold execReadbackWriteEnd
  split
  · split
    · next hw =>
      refine .next (lanesConform_of_local h (endedWriteOut_local s i) (endedWriteOut_conforms (h i) ?_))
      intro hn
      simp [Lane.writeLeft, hn] at hw
    · exact .next h
  split
  · next off _ _ j hst _ _ =>
    have hq : (s.lane i).quiet := Lane.quiet_of_step (h i) (by rw [hst]; rfl)
    have hphase : (s.lane i).state.phase = false := by
      by_contra hp
      have := Lane.step_of_phase hq (by simpa using hp)
      simp [hst] at this
    split
    · exact .next (lanesConform_resolveStep h (readbackWritten_local s i j off) (readbackWritten_keeps hq hphase j off))
    · refine .next (lanesConform_resolveStep h (modLane_local s i _) (.of_quiet ?_ _))
      rw [State.lane_modLane_self]
      exact Lane.quiet_setReadback hq none
  · exact .next h

theorem execFrameSent_conforming (i : LaneId) : Conforming (execFrameSent i s) := by
  have h1 : (s.modLane i (fun l => { l with tx := .idle })).lanesConform := lanesConform_modLane h (h i)
  unfold execFrameSent
  split
  · exact .next h
  · exact .next h
  dsimp only
  split
  · exact .next (lanesConform_modLane h1 (Lane.conforms_startTimer (h1 i) _))
  split
  · refine .next (lanesConform_modLane h1 ?_)
    rw [State.lane_modLane_self]
    exact h i
  split
  · next hs =>
    refine .next (lanesConform_resolveStep h1 (proceed_local _ i) (proceed_keeps ?_))
    exact Lane.quiet_of_state (h1 i) (by rw [State.lane_modLane_self, hs]; simp)
  · exact .next h1

theorem execResponseTimeout_conforming (i : LaneId) : Conforming (execResponseTimeout i s) := by
  unfold execResponseTimeout
  split
  · exact .next h
  next q ho =>
  split
  · exact .next h
  split
  · exact .next (lanesConform_modLane h (Lane.conforms_retransmit (h i) ho))
  · exact .next (lanesConform_laneFault h i _)

theorem execFrameReceived_conforming (i : LaneId) (chars : List Byte) : Conforming (execFrameReceived i chars s) := by
  have h1 : (s.modLane i (fun l => { l with rx := none })).lanesConform := lanesConform_modLane h (h i)
  unfold execFrameReceived
  split
  · split
    · exact .next (lanesConform_of_local h1 (takeFrame_local _ i _ _ _) (takeFrame_conforms (h1 i) _ _ _))
    all_goals exact .next h
  · exact .next h

theorem lanesConform_spoilFrame (i : LaneId) : (spoilFrame s i).lanesConform :=
  lanesConform_of_local h (spoilFrame_local s i) (spoilFrame_conforms (h i))

theorem execFrameSpoiled_conforming (i : LaneId) (chars : List Byte) (bad : Option RxChar) :
    Conforming (execFrameSpoiled i chars bad s) := by
  unfold execFrameSpoiled
  split
  · exact .next (lanesConform_spoilFrame h i)
  · exact .next h

theorem execFrameGapTimeout_conforming (i : LaneId) : Conforming (execFrameGapTimeout i s) := by
  unfold execFrameGapTimeout
  split
  · exact .next (lanesConform_spoilFrame h i)
  · exact .next h

theorem execFrameCharacterReceived_conforming (i : LaneId) (char : RxChar) :
    Conforming (execFrameCharacterReceived i char s) := by
  unfold execFrameCharacterReceived
  split
  · exact .next (lanesConform_modLane h (h i))
  · exact .next h

/-! ### The phases of ATTACH -/

theorem execTrainingPatternSent_conforming (i : LaneId) : Conforming (execTrainingPatternSent i s) := by
  unfold execTrainingPatternSent
  split
  · exact .next (lanesConform_modLane h (h i))
  · exact .next h
  · exact .next h

/-- A lane in TRAINING opens its session (R37). -/
theorem lanesConform_openSession {i : LaneId} (hs : (s.lane i).state = .training) : (openSession s i).lanesConform := by
  have hq := Lane.quiet_of_state (h i) (by simp [hs])
  obtain ⟨ho, hrow, hun, hpin⟩ := (Lane.quiet_iff _).mp hq
  refine lanesConform_resolveStep h ((modLane_local s i _).trans (enterStep_local _ i _)) (enterStep_keeps ?_)
  rw [State.lane_modLane_self, Lane.quiet_iff]
  refine ⟨ho, ?_, hun, hpin⟩
  simp only [Lane.row, hs, Bool.and_eq_true] at hrow ⊢
  exact ⟨hrow.1, by simp⟩

theorem execTrainingCharacterReceived_conforming (i : LaneId) (char : RxChar) :
    Conforming (execTrainingCharacterReceived i char s) := by
  unfold execTrainingCharacterReceived
  split
  · next hc =>
    split
    · exact .next (lanesConform_modLane h (h i))
    · refine .next (lanesConform_openSession h ?_)
      simp only [Bool.and_eq_true, beq_iff_eq, decide_eq_true_eq] at hc
      exact hc.1.1.1
  · exact .next h

/-- A reset pulse begins for a lane that stands in one of the phases with its power on (R5, R36). -/
theorem lanesConform_enterResetting {i : LaneId} (hp : (s.lane i).state.phase = true) (pulse : Nat) :
    (s.modLane i (fun l => l.enterResetting pulse)).lanesConform := by
  have hq := Lane.quiet_of_state (h i) (by intro hb; rw [hb] at hp; simp [LaneState.phase] at hp)
  obtain ⟨hid, hun, hpow⟩ := Lane.no_session_of_phase hq hp
  exact lanesConform_modLane h (Lane.quiet_enterResetting hpow hq.2 hid hun hq.not_pinned pulse).1

theorem execTrainingTimeout_conforming (i : LaneId) : Conforming (execTrainingTimeout i s) := by
  have h1 : (s.modLane i (fun l => { l with training := none })).lanesConform := lanesConform_modLane h (h i)
  unfold execTrainingTimeout
  split
  · next hc =>
    simp only [Bool.and_eq_true, decide_eq_true_eq] at hc
    dsimp only
    split
    · exact .next (lanesConform_laneFault h1 i _)
    split
    · exact .next h1
    split
    · exact .next (lanesConform_enterResetting h1 (by rw [State.lane_modLane_self, hc.1]; rfl) _)
    · exact .next h1
  · exact .next h

theorem execPowerSettleExpiry_conforming (i : LaneId) : Conforming (execPowerSettleExpiry i s) := by
  unfold execPowerSettleExpiry
  split
  · exact .next h
  · exact .next (lanesConform_modLane h (Lane.conforms_placeCheck (h i)))

theorem execCheckWaitExpiry_conforming (i : LaneId) : Conforming (execCheckWaitExpiry i s) := by
  unfold execCheckWaitExpiry
  split
  · exact .next h
  · exact .next (lanesConform_modLane h (Lane.conforms_placeCheck (h i)))

theorem execResetPulseExpiry_conforming (i : LaneId) : Conforming (execResetPulseExpiry i s) := by
  unfold execResetPulseExpiry
  split
  · split
    · next hs =>
      have hq := Lane.quiet_of_state (h i) (by simp [hs])
      obtain ⟨ho, hrow, hun, hpin⟩ := (Lane.quiet_iff _).mp hq
      refine .next (lanesConform_modLane h (And.left ((Lane.quiet_iff _).mpr ⟨ho, ?_, hun, hpin⟩)))
      simp only [Lane.row, Lane.driveReset, hs, Bool.and_eq_true] at hrow ⊢
      tauto
    · exact .next h
  · exact .next h

theorem execBootSettleExpiry_conforming (i : LaneId) : Conforming (execBootSettleExpiry i s) := by
  have h1 : (s.modLane i (fun l => { l with bootSettle := none })).lanesConform := lanesConform_modLane h (h i)
  unfold execBootSettleExpiry
  split
  · split
    · next hs =>
      dsimp only
      split
      · exact .next h1
      · have hs1 : ((s.modLane i (fun l => { l with bootSettle := none })).lane i).state = .resetting := by
          rw [State.lane_modLane_self]; exact hs
        exact .next (lanesConform_modLane h1
          (Lane.quiet_enterTraining (Lane.quiet_of_state (h1 i) (by rw [hs1]; simp)) hs1 _).1)
    · exact .next h
  · exact .next h

theorem execRateGapExpiry_conforming (i : LaneId) : Conforming (execRateGapExpiry i s) := by
  unfold execRateGapExpiry
  split
  · exact .next h
  next r _ =>
  have h1 : (s.modLane i (fun l => { l with rateGap := none, rate := r })).lanesConform := lanesConform_modLane h (h i)
  dsimp only
  split
  · next hst =>
    have hq : ((s.modLane i (fun l => { l with rateGap := none, rate := r })).lane i).quiet :=
      Lane.quiet_of_step (h1 i) (by rw [State.lane_modLane_self, hst]; rfl)
    refine .next (lanesConform_resolveStep h1 (enterStep_local _ i _) (enterStep_keeps_of_session hq ?_ _))
    by_contra hp
    have := Lane.step_of_phase hq (by simpa using hp)
    simp [hst] at this
  · exact .next h1

end Commands

end Sys2Proof.Machine
end

section
/-! CERTIFICATES. The commands of the Supply Monitor, the Staging Pool, the Completion Writer, the Intake Unit and Device
Control keep every lane conforming, and with them every step does. -/

namespace Sys2Proof.Machine

/-- Telling of a message leaves the lanes. -/
theorem lanesConform_withMessage {b t : State} (h : t.lanesConform) : (withMessage b t).lanesConform :=
  lanesConform_of_lanes h (by simp)

theorem lanesConform_deviceFault {s : State} (h : s.lanesConform) (c : Cause) : (deviceFault s c).lanesConform :=
  lanesConform_of_lanes h (by simp)

theorem lanesConform_drainIfComplete {s : State} (h : s.lanesConform) : (drainIfComplete s).lanesConform :=
  lanesConform_of_lanes h (by simp)

theorem lanesConform_offerIfClear {s : State} (h : s.lanesConform) (n : SlotId) : (offerIfClear s n).lanesConform :=
  lanesConform_of_lanes h (by simp)

theorem lanesConform_freeSlot {s : State} (h : s.lanesConform) (n : SlotId) : (freeSlot s n).lanesConform :=
  lanesConform_of_lanes h (by simp)

theorem lanesConform_promote {s : State} (h : s.lanesConform) : (promote s).lanesConform := by
  refine lanesConform_of_conforms_eq h fun k => ?_
  rcases promote_lane s k with hk | hk
  · rw [hk]
  · rw [hk]; rfl

theorem lanesConform_postIntake {s : State} (h : s.lanesConform) (c : IntakeCompletion) : (postIntake s c).lanesConform :=
  lanesConform_of_conforms_eq h fun k => by rw [postIntake_lane]

/-! ### Jobs placed, aborted, and failed by their image -/

/-- The lanes of a set come without repeats. -/
theorem nodup_lanesOf (m : BitVec 16) : (lanesOf m).Nodup := (List.nodup_finRange 16).filter _

/-- Lanes with nothing outstanding take up their jobs one after the other (R57, R132). -/
theorem lanesConform_takeUps (l : List LaneId) {s : State} (hn : l.Nodup) (h : s.lanesConform)
    (ho : ∀ i ∈ l, (s.lane i).outstanding = none) : (l.foldl nextJob s).lanesConform := by
  induction l generalizing s with
  | nil => exact h
  | cons i l ih =>
    obtain ⟨hi, hn⟩ := List.nodup_cons.mp hn
    refine ih hn (lanesConform_nextJob h (ho i (by simp))) fun k hk => ?_
    have hne : k ≠ i := fun e => hi (e ▸ hk)
    rw [(nextJob_local s i).2.2 k hne]
    exact ho k (by simp [hk])

/-- A job at the tail of a queue leaves the lane conforming as it was (R57). -/
theorem lanesConform_joinQueue {s : State} (h : s.lanesConform) (n : SlotId) (i : LaneId) : (joinQueue n s i).lanesConform :=
  lanesConform_modLane h (Lane.conforms_setQueue (h i) (by simp))

/-- Joining queues leaves every outstanding request. -/
theorem joinQueues_outstanding (n : SlotId) (l : List LaneId) (s : State) (k : LaneId) :
    ((l.foldl (joinQueue n) s).lane k).outstanding = (s.lane k).outstanding := by
  refine foldl_keeps (fun t : State => (t.lane k).outstanding) (joinQueue n) (fun t i => ?_) l s
  unfold joinQueue
  rw [State.lane_modLane]
  split
  · rfl
  · rfl

theorem lanesConform_placeLaneJob {s : State} (h : s.lanesConform) (n : SlotId) (j : Job) :
    (placeLaneJob s n j).lanesConform := by
  unfold placeLaneJob
  refine lanesConform_takeUps _ ((nodup_lanesOf _).filter _)
    (lanesConform_foldl (fun t i ht => lanesConform_joinQueue ht n i) _ (lanesConform_of_lanes h (by simp))) fun i hi => ?_
  rw [joinQueues_outstanding]
  exact (Lane.quiet_of_queue (h i) (by simpa using (List.mem_filter.mp hi).2)).2

theorem lanesConform_placeBarrier {s : State} (h : s.lanesConform) (n : SlotId) (j : Job) :
    (placeBarrier s n j).lanesConform := by
  unfold placeBarrier
  dsimp only
  split
  · exact lanesConform_of_lanes h (by simp)
  · exact lanesConform_of_lanes h rfl

theorem lanesConform_place {s : State} (h : s.lanesConform) (n : SlotId) : (place s n).lanesConform := by
  unfold place
  split
  · exact h
  next j _ =>
  have h1 : (s.modRing j.ring (fun r => { r with inIntake := false })).lanesConform := lanesConform_of_lanes h rfl
  dsimp only
  split
  case h_1 => exact lanesConform_placeBarrier h1 n j
  case h_9 => exact h1
  case h_10 => exact h1
  case h_11 => exact h1
  all_goals exact lanesConform_placeLaneJob h1 n j

theorem lanesConform_examine {s : State} (h : s.lanesConform) (r : RingId) (j : JobSpec) : (examine s r j).lanesConform := by
  unfold examine
  have hold : ∀ cause, (holdEntry s r j cause).lanesConform := fun cause => lanesConform_of_lanes h (by simp [holdEntry])
  split
  · exact hold _
  split
  · unfold claim
    dsimp only
    split
    · exact lanesConform_of_lanes h (by simp)
    · exact lanesConform_place (lanesConform_of_lanes h (by simp)) _
  · exact hold _

/-- An ATTACH aborted before identity leaves its lane OFF, and the next job is taken up (R152). -/
theorem lanesConform_abortBeforeIdentity {s : State} (h : s.lanesConform) (i : LaneId) :
    (abortBeforeIdentity s i).lanesConform := by
  have hloc : LaneLocal i s (switchOff ((releasePin s i).modLane i (fun l => { l.enterOff with tx := .idle })) i) :=
    (releasePin_local s i).trans ((modLane_local _ i _).trans (switchOff_local _ i))
  have hq : ((switchOff ((releasePin s i).modLane i (fun l => { l.enterOff with tx := .idle })) i).lane i).quiet := by
    rw [switchOff_lane_self, State.lane_modLane_self, releasePin_lane, if_pos rfl]
    split
    · exact Lane.quiet_enterOff_powerOff (l := { s.lane i with pinned := none }) rfl
    · next hp =>
      have hpow : (s.lane i).power = false := by
        simpa [Lane.enterOff, Lane.endSession, Lane.stopPhases, Lane.driveMode, Lane.driveReset] using hp
      exact Lane.quiet_enterOff (l := { s.lane i with pinned := none }) hpow rfl
  exact lanesConform_finishLane (lanesConform_of_local h hloc hq.1) hq.2 _

/-- A job that a lane never took up leaves its queue, whose head stays (R148, R150). -/
theorem lanesConform_removeJob {s : State} (h : s.lanesConform) {i : LaneId} {n : SlotId}
    (hh : (s.lane i).queue.head? ≠ some n) (j : Job) (v : Verdict) : (removeJob s i n j v).lanesConform := by
  refine lanesConform_of_local h (removeJob_local s i n j v) ?_
  unfold removeJob
  dsimp only
  rw [State.lane_congr (retireIfDone_frame _ n).2.2.1 i, State.unblockLane_lane, State.lane_modLane_self,
    State.lane_congr (State.modSlot_frame s n _).2.2.1 i]
  refine Lane.conforms_setQueue (h i) fun hne => ?_
  cases hqueue : (s.lane i).queue with
  | nil => exact absurd hqueue hne
  | cons m rest =>
    have hm : m ≠ n := by simpa [hqueue] using hh
    simp [hm]

theorem lanesConform_abortLane {s : State} (h : s.lanesConform) (n : SlotId) (i : LaneId) :
    (abortLane n s i).lanesConform := by
  unfold abortLane
  split
  · exact h
  split
  · exact h
  split
  · next hh => exact lanesConform_removeJob h hh _ _
  split
  · exact lanesConform_abortBeforeIdentity h i
  split
  · exact h
  · next ho => exact lanesConform_finishLane h (by simpa using ho) _

theorem lanesConform_abortJob {s : State} (h : s.lanesConform) (n : SlotId) (j : Job) : (abortJob s n j).lanesConform := by
  have fold : ∀ (l : List LaneId) (t : State), t.lanesConform → (l.foldl (abortLane n) t).lanesConform :=
    fun l t ht => lanesConform_foldl (fun u i hu => lanesConform_abortLane hu n i) l ht
  unfold abortJob
  split
  · exact h
  · exact lanesConform_of_lanes h rfl
  · exact lanesConform_of_lanes h (by simp)
  · exact fold _ _ h
  · exact fold _ _ (lanesConform_of_lanes h (by simp))

theorem lanesConform_abortLookup {s : State} (h : s.lanesConform) (own : IntakeCompletion) (r : RingId) (tag : BitVec 16) :
    (abortLookup s own r tag).lanesConform := by
  unfold abortLookup
  split
  · exact lanesConform_postIntake h _
  split
  · exact lanesConform_postIntake h _
  split
  · exact lanesConform_abortJob (lanesConform_postIntake h _) _ _
  · exact lanesConform_postIntake h _

theorem lanesConform_imageFailedLane {s : State} (h : s.lanesConform) (n : SlotId) (i : LaneId) :
    (imageFailedLane n s i).lanesConform := by
  unfold imageFailedLane
  split
  · exact h
  split
  · next hc =>
    simp only [Bool.and_eq_true, Option.isNone_iff_eq_none] at hc
    exact lanesConform_finishLane h hc.2 _
  · exact h

theorem lanesConform_imageFailed {s : State} (h : s.lanesConform) (n : SlotId) (g b : Nat) :
    (imageFailed s n g b).lanesConform := by
  unfold imageFailed
  split
  · exact h
  split
  · exact h
  · exact lanesConform_foldl (fun t i ht => lanesConform_imageFailedLane ht n i) _ (lanesConform_of_lanes h (by simp))

section Commands

variable {s : State} (h : s.lanesConform)
include h

/-! ### The Supply Monitor -/

theorem execSuperviseTimerExpiry_conforming : Conforming (execSuperviseTimerExpiry s) := by
  unfold execSuperviseTimerExpiry
  split
  · refine .next (lanesConform_of_conforms_eq h fun k => ?_)
    simp only [State.lane, Vector.getElem_map]
    split
    · rfl
    · rfl
  · exact .next h

theorem execConversionStart_conforming : Conforming (execConversionStart s) := by
  have hcheck : ∀ i, (s.modLane i (fun l => { l with checkPending := false })).lanesConform :=
    fun i => lanesConform_modLane h (h i)
  have hsupervise : ∀ i, (s.modLane i (fun l => { l with supervisePending := false })).lanesConform :=
    fun i => lanesConform_modLane h (h i)
  unfold execConversionStart
  split
  · exact .next h
  split
  · exact .next (lanesConform_of_lanes (hcheck _) rfl)
  split
  · exact .next (lanesConform_of_lanes (hsupervise _) rfl)
  · exact .next h

theorem lanesConform_takeCheck (i : LaneId) (mv : Nat) : (takeCheck s i mv).lanesConform := by
  have h1 : (s.modLane i (fun l => { l with checkCount := l.checkCount + 1 })).lanesConform := lanesConform_modLane h (h i)
  unfold takeCheck
  split
  · next hs =>
    dsimp only
    split
    · split
      · exact h1
      split
      · exact lanesConform_enterResetting h1 (by rw [State.lane_modLane_self, hs]; rfl) _
      · exact h1
    split
    · exact lanesConform_laneFault h1 i _
    · exact lanesConform_modLane h1 (h1 i)
  · exact h

theorem lanesConform_takeSupervise (i : LaneId) (mv : Nat) : (takeSupervise s i mv).lanesConform := by
  unfold takeSupervise
  split
  · exact lanesConform_modLane h (h i)
  split
  · exact lanesConform_modLane h (h i)
  · exact lanesConform_laneFault (lanesConform_modLane h (h i)) i _

theorem execConversionEnd_conforming (mv : Int) : Conforming (execConversionEnd mv s) := by
  unfold execConversionEnd
  split
  · exact .next h
  have h1 : ({ s with supply := { s.supply with converter := none } } : State).lanesConform := lanesConform_of_lanes h rfl
  dsimp only
  split
  · exact .next h1
  split
  · exact .next (lanesConform_takeCheck (lanesConform_modLane h1 (h1 _)) _ _)
  · exact .next (lanesConform_takeSupervise (lanesConform_modLane h1 (h1 _)) _ _)

theorem execOvercurrentTrip_conforming (i : LaneId) : Conforming (execOvercurrentTrip i s) := by
  unfold execOvercurrentTrip
  split
  · exact .next (lanesConform_laneFault h i _)
  · exact .next h

/-! ### The Staging Pool -/

theorem execStagingReadIssue_conforming : Conforming (execStagingReadIssue s) := by
  unfold execStagingReadIssue
  split
  · exact .next h
  split
  · split
    · exact .next (lanesConform_of_lanes h (by simp))
    · exact .next (lanesConform_of_lanes h (by simp))
  · exact .next h

theorem lanesConform_blockReadEnd (b : BlockId) (k : Block) (r : HostRead) : (blockReadEnd s b k r).lanesConform := by
  unfold blockReadEnd
  split
  · split
    · exact h
    split
    · exact lanesConform_offerIfClear (lanesConform_of_lanes h (by simp)) _
    · exact lanesConform_of_lanes h rfl
  · exact lanesConform_offerIfClear (lanesConform_imageFailed (lanesConform_of_lanes h (by simp)) _ _ _) _

theorem execStagingReadEnd_conforming (e : Epoch) (b : BlockId) (r : HostRead) : Conforming (execStagingReadEnd e b r s) := by
  unfold execStagingReadEnd
  split
  · exact .next (lanesConform_of_lanes h (by simp))
  split
  · exact .next h
  split
  · exact .next (lanesConform_blockReadEnd h b _ r)
  · exact .next h

/-! ### The Completion Writer -/

theorem execCompletionTransactionStart_conforming : Conforming (execCompletionTransactionStart s) := by
  unfold execCompletionTransactionStart
  split
  · split
    · split
      · exact .next (lanesConform_of_lanes h (by simp))
      · exact .next (lanesConform_of_lanes h (by simp))
    · exact .next h
  · exact .next h

theorem lanesConform_beginCompletion : (beginCompletion s).lanesConform := by
  unfold beginCompletion
  split
  · split
    · exact lanesConform_of_lanes h rfl
    · exact h
  · exact h

theorem execResultRecordWriteEnd_conforming (e : Epoch) (i : LaneId) (r : HostWrite) :
    Conforming (execResultRecordWriteEnd e i r s) := by
  unfold execResultRecordWriteEnd
  split
  · split
    · dsimp only
      split
      · exact .next (lanesConform_withMessage (lanesConform_deviceFault (lanesConform_of_lanes h (by simp)) _))
      · exact .next (lanesConform_beginCompletion (lanesConform_of_lanes h (by simp)))
    · exact .next h
  · exact .next h

theorem lanesConform_coalesce (irqNow : Bool) : (coalesce s irqNow).lanesConform := by
  unfold coalesce
  split
  · exact h
  dsimp only
  split
  · exact lanesConform_of_lanes h rfl
  · exact lanesConform_of_lanes h rfl

theorem lanesConform_freeRecordSlot (r : HeldRecord) : (freeRecordSlot s r).lanesConform := by
  unfold freeRecordSlot
  split
  · exact lanesConform_freeSlot h _
  · exact h
  · exact h

theorem lanesConform_completeRecord (r : HeldRecord) : (completeRecord s r).lanesConform :=
  lanesConform_coalesce (lanesConform_freeRecordSlot (lanesConform_promote (lanesConform_of_lanes h (by simp))) r) _

theorem execCompletionRecordWriteEnd_conforming (e : Epoch) (r : HostWrite) :
    Conforming (execCompletionRecordWriteEnd e r s) := by
  unfold execCompletionRecordWriteEnd
  split
  · split
    · exact .next (lanesConform_withMessage (lanesConform_drainIfComplete (lanesConform_completeRecord h _)))
    · exact .next (lanesConform_withMessage (lanesConform_deviceFault (lanesConform_of_lanes h (by simp)) _))
  · exact .next h

theorem execCoalescingDelayExpiry_conforming : Conforming (execCoalescingDelayExpiry s) := by
  unfold execCoalescingDelayExpiry
  split
  · exact .next h
  · exact .next (lanesConform_withMessage (lanesConform_of_lanes h (by simp [cqSignal])))

/-! ### The Intake Unit -/

theorem execIntakeArbiterChoice_conforming : Conforming (execIntakeArbiterChoice s) := by
  unfold execIntakeArbiterChoice
  split
  · split
    · unfold chooseRing
      dsimp only
      split
      · exact .next (lanesConform_examine (lanesConform_of_lanes h (by simp)) _ _)
      · exact .next (lanesConform_of_lanes h (by simp))
    · exact .next h
  · exact .next h

theorem lanesConform_takeRecord (r : RingId) (bytes : List Byte) : (takeRecord s r bytes).lanesConform := by
  unfold takeRecord
  split
  · exact lanesConform_postIntake h _
  split
  · exact lanesConform_postIntake h _
  split
  case h_1 => exact lanesConform_abortLookup h _ _ _
  case h_2 e _ =>
    refine lanesConform_postIntake (lanesConform_of_lanes h ?_) _
    unfold clearCredentials
    split
    · split
      · rfl
      · rfl
    split
    · rfl
    · rfl
  case h_3 => exact lanesConform_of_lanes h rfl
  all_goals exact lanesConform_examine h _ _

theorem execRecordReadEnd_conforming (e : Epoch) (r : HostRead) : Conforming (execRecordReadEnd e r s) := by
  unfold execRecordReadEnd
  split
  · split
    · exact .next h
    split
    · exact .next (lanesConform_withMessage (lanesConform_deviceFault h _))
    split
    · exact .next (lanesConform_takeRecord h _ _)
    · exact .next h
  · exact .next h

theorem execLoadCredentialReadEnd_conforming (e : Epoch) (r : HostRead) : Conforming (execLoadCredentialReadEnd e r s) := by
  unfold execLoadCredentialReadEnd
  split
  · split
    · split
      · exact .next h
      split
      · exact .next (lanesConform_postIntake h _)
      split
      · exact .next h
      split
      · exact .next (lanesConform_postIntake (lanesConform_of_lanes h (by simp)) _)
      · exact .next (lanesConform_postIntake h _)
    · exact .next h
  · exact .next h

theorem lanesConform_retireAborted (n : SlotId) (j : Job) : (retireAborted s n j).lanesConform :=
  lanesConform_offerIfClear (lanesConform_of_lanes h (by simp)) n

theorem lanesConform_completeFromIntake (n : SlotId) (j : Job) (st : Status) (d : Detail) :
    (completeFromIntake s n j st d).lanesConform :=
  lanesConform_of_conforms_eq h fun k => by unfold completeFromIntake; rw [offer_conforms]; rfl

theorem execListReadEnd_conforming (e : Epoch) (n : SlotId) (r : HostRead) : Conforming (execListReadEnd e n r s) := by
  unfold execListReadEnd
  split
  · split
    · exact .next h
    split
    · split
      · exact .next (lanesConform_retireAborted h n _)
      · exact .next (lanesConform_completeFromIntake h n _ _ _)
    split
    · exact .next h
    split
    · exact .next (lanesConform_retireAborted h n _)
    dsimp only
    split
    · exact .next (lanesConform_completeFromIntake h n _ _ _)
    · exact .next (lanesConform_place (lanesConform_of_lanes h (by simp)) n)
  · exact .next h

/-! ### Device Control -/

omit h in
/-- Both resets leave every lane OFF, with a readback write in flight at most (R51, R69). -/
theorem resetTo_conforms (addr : BitVec 64) (k : LaneId) : ((resetTo s addr).lane k).conforms = true := by
  have hl : (resetTo s addr).lane k = (s.lane k).returned := by simp [resetTo, State.lane]
  have hq : (s.lane k).returned.quiet := (Lane.quiet_iff _).mpr ⟨rfl, rfl, by simp [Lane.returned, Lane.reset], rfl⟩
  rw [hl]
  exact hq.1

theorem lanesConform_enterQuiescing : (enterQuiescing s).lanesConform :=
  lanesConform_drainIfComplete (lanesConform_of_lanes h (by simp))

theorem lanesConform_enableCommand : (enableCommand s).lanesConform := by
  refine lanesConform_of_lanes h ?_
  unfold enableCommand
  split
  all_goals rfl

theorem lanesConform_haltCommand : (haltCommand s).lanesConform := by
  unfold haltCommand
  split
  · exact lanesConform_enterQuiescing h
  all_goals exact lanesConform_of_lanes h rfl

theorem execEnable_conforming (w : Bool) : Conforming (execEnable w s) := by
  have henable := lanesConform_enableCommand h
  refine .next (lanesConform_withMessage ?_)
  split
  · exact lanesConform_haltCommand henable
  · exact henable

omit h in
theorem applySubmit_lanes (ring index : Nat) : (applySubmit s ring index).lanes = s.lanes := by
  unfold applySubmit
  split
  · rfl
  split
  · rfl
  · rfl

theorem execSubmitWrite_conforming (value : BitVec 32) : Conforming (execSubmitWrite value s) := by
  have hs : ∀ ring index, (applySubmit s ring index).lanesConform := fun _ _ => lanesConform_of_lanes h (applySubmit_lanes _ _)
  unfold execSubmitWrite
  dsimp only
  split
  · exact .next (lanesConform_of_lanes h (by simp))
  · exact .next (lanesConform_of_lanes h (by simp))
  all_goals exact .next (hs _ _)

theorem execCqHeadWrite_conforming (value : BitVec 32) : Conforming (execCqHeadWrite value s) := by
  unfold execCqHeadWrite
  split
  · exact .next (lanesConform_of_lanes h (by simp))
  · exact .next (lanesConform_of_lanes h (by simp))

theorem lanesConform_configAccepted (c : ConfigBlock) : (configAccepted s c).lanesConform := by
  have h1 : (allRings.foldl (applyKept s.ctl.keptSubmit) (configured s c)).lanesConform := by
    refine lanesConform_of_lanes h ((foldl_keeps State.lanes _ (fun t r => ?_) _ _).trans rfl)
    unfold applyKept
    split
    · rfl
    · exact applySubmit_lanes _ _
  unfold configAccepted
  dsimp only
  split
  · exact lanesConform_enterQuiescing h1
  · exact h1

theorem execConfigReadEnd_conforming (e : Epoch) (r : HostRead) : Conforming (execConfigReadEnd e r s) := by
  unfold execConfigReadEnd
  split
  · split
    · exact .next (lanesConform_withMessage (lanesConform_deviceFault h _))
    split
    · exact .next h
    split
    · exact .next (lanesConform_withMessage (lanesConform_configAccepted h _))
    · exact .next (lanesConform_beginCompletion (lanesConform_of_lanes h (by simp)))
  · exact .next h

/-! ### Every command -/

/-- Every command keeps every lane conforming. -/
theorem exec_conforming (c : Instr) : Conforming (exec c s) := by
  cases c with
  | powerOnReset => exact .next (resetTo_conforms 0)
  | softReset => exact .next (resetTo_conforms _)
  | enable w => exact execEnable_conforming h w
  | halt => exact .next (lanesConform_withMessage (lanesConform_haltCommand h))
  | submitWrite v => exact execSubmitWrite_conforming h v
  | cqHeadWrite v => exact execCqHeadWrite_conforming h v
  | irqWrite v => exact .next (lanesConform_of_lanes h (by simp))
  | statusWrite v => exact .next (lanesConform_of_lanes h (by simp))
  | configAddrWrite half v => exact .next (lanesConform_of_lanes h (by simp))
  | registerWriteIgnored o b v => exact .next h
  | configReadEnd e r => exact execConfigReadEnd_conforming h e r
  | drainComplete => exact .next (lanesConform_withMessage (lanesConform_drainIfComplete h))
  | intakeArbiterChoice => exact execIntakeArbiterChoice_conforming h
  | recordReadEnd e r => exact execRecordReadEnd_conforming h e r
  | listReadEnd e n r => exact execListReadEnd_conforming h e n r
  | loadCredentialReadEnd e r => exact execLoadCredentialReadEnd_conforming h e r
  | holdingQueueEntry => exact .next (lanesConform_promote h)
  | completionTransactionStart => exact execCompletionTransactionStart_conforming h
  | resultRecordWriteEnd e i r => exact execResultRecordWriteEnd_conforming h e i r
  | completionRecordWriteEnd e r => exact execCompletionRecordWriteEnd_conforming h e r
  | coalescingDelayExpiry => exact execCoalescingDelayExpiry_conforming h
  | stagingReadIssue => exact execStagingReadIssue_conforming h
  | stagingReadEnd e b r => exact execStagingReadEnd_conforming h e b r
  | chunkSend i => exact execChunkSend_conforming h i
  | readbackWriteEnd e i r => exact execReadbackWriteEnd_conforming h e i r
  | frameSent i => exact execFrameSent_conforming h i
  | responseTimeout i => exact execResponseTimeout_conforming h i
  | frameReceived i chars => exact execFrameReceived_conforming h i chars
  | frameSpoiled i chars bad => exact execFrameSpoiled_conforming h i chars bad
  | frameGapTimeout i => exact execFrameGapTimeout_conforming h i
  | trainingPatternSent i => exact execTrainingPatternSent_conforming h i
  | trainingCharacterReceived i char => exact execTrainingCharacterReceived_conforming h i char
  | trainingTimeout i => exact execTrainingTimeout_conforming h i
  | powerSettleExpiry i => exact execPowerSettleExpiry_conforming h i
  | checkWaitExpiry i => exact execCheckWaitExpiry_conforming h i
  | resetPulseExpiry i => exact execResetPulseExpiry_conforming h i
  | bootSettleExpiry i => exact execBootSettleExpiry_conforming h i
  | rateGapExpiry i => exact execRateGapExpiry_conforming h i
  | superviseTimerExpiry => exact execSuperviseTimerExpiry_conforming h
  | conversionStart => exact execConversionStart_conforming h
  | conversionEnd mv => exact execConversionEnd_conforming h mv
  | overcurrentTrip i => exact execOvercurrentTrip_conforming h i
  | frameCharacterReceived i char => exact execFrameCharacterReceived_conforming h i char

end Commands

/-- Settles O55: a step is the front command on the state with the rest of the queue, which has the same lanes. -/
theorem everyStepKeepsLanesConforming : Obligations.EveryStepKeepsLanesConforming := by
  intro s t h hstep
  unfold step at hstep
  split at hstep
  · exact Conforming.next h t hstep
  · exact exec_conforming (lanesConform_of_lanes h (by simp)) _ t hstep

end Sys2Proof.Machine
end

section
/-! CERTIFICATES. Frames as they are built and as the receiver reads them (R6 to R8). -/

namespace Sys2Proof.Machine

/-! ### Two bytes, the high one first -/

/-- Two bytes hold the number that their bits spell. -/
theorem append_eq_ofNat (hi lo : Byte) : (hi ++ lo : BitVec 16) = BitVec.ofNat 16 (hi.toNat * 256 + lo.toNat) := by
  apply BitVec.eq_of_toNat_eq
  have hlo := lo.isLt
  have hhi := hi.isLt
  rw [BitVec.toNat_append, ← Nat.shiftLeft_add_eq_or_of_lt hlo, Nat.shiftLeft_eq, BitVec.toNat_ofNat, Nat.mod_eq_of_lt]
  omega

/-- The check's high byte and low byte spell the check (R6). -/
theorem append_bytes (c : BitVec 16) : (BitVec.ofNat 8 (c.toNat / 256) ++ BitVec.ofNat 8 c.toNat : BitVec 16) = c := by
  have hc := c.isLt
  rw [append_eq_ofNat]
  apply BitVec.eq_of_toNat_eq
  simp only [BitVec.toNat_ofNat]
  omega

/-- A frame is its start character, length, seq, kind, payload and the check's two bytes (R6). -/
theorem buildFrame_eq (seq kind : Byte) (payload : List Byte) :
    let crc := crc16 (frameBody seq kind payload)
    buildFrame seq kind payload = Config.startChar :: BitVec.ofNat 8 payload.length :: seq :: kind ::
      (payload ++ [BitVec.ofNat 8 (crc.toNat / 256), BitVec.ofNat 8 crc.toNat]) := rfl

/-! ### The receiver -/

/-- Inside a frame of a length that is allowed, until all its characters are there (R8). -/
theorem rxStatus_inside {len : Byte} (hl : len.toNat ≤ 132) {tail : List Byte} (ht : tail.length < len.toNat + 4) :
    rxStatus (Config.startChar :: len :: tail) = .inside := by
  have hmax : ¬ Config.maxPayload < len.toNat := by simpa [Config.maxPayload] using hl
  simp [rxStatus, hmax, ht]

/-- With all its characters there a frame is judged by its check (R7, R8). -/
theorem rxStatus_complete (seq kind hi lo : Byte) {payload : List Byte} (hp : payload.length ≤ 132) :
    rxStatus (Config.startChar :: BitVec.ofNat 8 payload.length :: seq :: kind :: (payload ++ [hi, lo])) =
      if crc16 (frameBody seq kind payload) = (hi ++ lo : BitVec 16) then .good seq kind payload else .badCrc := by
  have hlen : (BitVec.ofNat 8 payload.length).toNat = payload.length := by
    rw [BitVec.toNat_ofNat, Nat.mod_eq_of_lt]; omega
  have hmax : ¬ Config.maxPayload < payload.length := by simpa [Config.maxPayload] using hp
  simp [rxStatus, hlen, hmax, frameBody, append_eq_ofNat, beNat]

/-- Settles O39: the receiver's cases on the characters of a frame. -/
theorem framesAreReadBackOrSpoiled : Obligations.FramesAreReadBackOrSpoiled := by
  refine ⟨fun seq kind payload hp => ⟨?_, ?_, ?_⟩, fun seq kind hi lo payload hp hcrc => ?_, fun len hl => ?_⟩
  · simp [buildFrame_eq]
    omega
  · rw [buildFrame_eq, rxStatus_complete _ _ _ _ hp, append_bytes, if_pos rfl]
  · intro k hk hlt
    have hlen : (BitVec.ofNat 8 payload.length).toNat = payload.length := by
      rw [BitVec.toNat_ofNat, Nat.mod_eq_of_lt]; omega
    rw [buildFrame_eq]
    match k, hk with
    | 1, _ => simp [rxStatus]
    | k + 2, _ =>
      rw [List.take_succ_cons, List.take_succ_cons]
      refine rxStatus_inside (by omega) ?_
      simp [hlen]
      omega
  · rw [show (0xC5 : Byte) = Config.startChar from rfl, rxStatus_complete _ _ _ _ hp, if_neg]
    exact fun h => hcrc h.symm
  · have hmax : Config.maxPayload < len.toNat := hl
    simp [rxStatus, Config.startChar, hmax]

end Sys2Proof.Machine
end

section
/-! SUPPORT. A lane whose whole queue is one job: how the lane, the job's result and the rest of the state stand once the
lane's part of the job has ended with a verdict or with a lane fault (R44, R56, R58, R75). -/

namespace Sys2Proof.Machine

/-! ### Results -/

/-- The retiring of a job keeps the results recorded for it (R56). -/
theorem retireIfDone_resultOf (s : State) (n m : SlotId) (i : LaneId) :
    (retireIfDone s n).resultOf m i = s.resultOf m i := by
  unfold retireIfDone
  split
  · rfl
  next j hj =>
  split
  · unfold State.resultOf
    rw [State.slot_congr (offerIfClear_frame _ n).2.2.1, State.slot_setSlot]
    by_cases hm : n = m
    · rw [if_pos hm, ← hm, hj]
    · rw [if_neg hm]
  · rfl

/-- The first outcome of a lane is the one recorded (R56). -/
theorem closeJob_resultOf {s : State} {i : LaneId} {n : SlotId} {j : Job} (hj : s.slot n = some j)
    (hr : j.results[i.val] = none) (r : LaneResult) : (closeJob s i n r).resultOf n i = some r := by
  unfold closeJob
  dsimp only
  rw [retireIfDone_resultOf]
  simp [State.resultOf, State.modSlot_slot, hj, Job.record, hr]

/-- The outcome of a lane is that of its result. -/
theorem outcomeOf_eq_resultOf (s : State) (n : SlotId) (i : LaneId) :
    s.outcomeOf n i = (s.resultOf n i).map LaneResult.outcome := by
  unfold State.outcomeOf State.resultOf
  split
  · rfl
  · rfl

/-- The end of a lane's part of a job leaves the credentials. -/
theorem closeJob_creds (s : State) (i : LaneId) (n : SlotId) (r : LaneResult) : (closeJob s i n r).creds = s.creds := by
  simp [closeJob]

/-- With nothing in the queue no job follows (R58). -/
theorem nextJob_of_nil {s : State} {i : LaneId} (hq : (s.lane i).queue = []) : nextJob s i = s := by
  simp [nextJob, hq, settle]

/-! ### The end of the only job -/

/-- From `s` to `t` lane `i`, which then stands as `l`, has ended its part of the job of slot `n`, its only one, with the
result `r`; Device Control and the other lanes stand (R56, R58). -/
structure EndsOnlyJob (s t : State) (i : LaneId) (n : SlotId) (l : Lane) (r : LaneResult) : Prop where
  lane : t.lane i = { l with queue := [], step := .none }
  result : t.resultOf n i = some r
  ctl : t.ctl = s.ctl
  others : ∀ k : LaneId, k ≠ i → t.lane k = s.lane k

/-- From `s` to `t` lane `i`, which stood as `l`, has taken a lane fault that leaves its power on, and its only job, in
slot `n`, has the result `r`: the session is over, RESET is asserted, and MODE and POWER are kept (R44). -/
structure FaultsOnlyJob (s t : State) (i : LaneId) (n : SlotId) (l : Lane) (code : FaultCode) (r : LaneResult) : Prop where
  state : (t.lane i).state = .faulted
  faultCode : (t.lane i).faultCode = some code
  outstanding : (t.lane i).outstanding = none
  identity : (t.lane i).identity = none
  pinned : (t.lane i).pinned = none
  resetPin : (t.lane i).resetPin = true
  power : (t.lane i).power = l.power
  modePin : (t.lane i).modePin = l.modePin
  outputs : (t.lane i).outputs = l.outputsAfter none (some true) none
  queue : (t.lane i).queue = []
  result : t.resultOf n i = some r
  ctl : t.ctl = s.ctl
  others : ∀ k : LaneId, k ≠ i → t.lane k = s.lane k

section OnlyJob

variable {s u : State} {i : LaneId} {n : SlotId} {j : Job}

/-- No job follows the only one (R58). -/
theorem nextJob_closeJob (hq : (u.lane i).queue = [n]) (r : LaneResult) :
    nextJob (closeJob u i n r) i = closeJob u i n r := by
  refine nextJob_of_nil ?_
  rw [closeJob_lane, hq]
  simp

/-- The lane's engine has led from `s` to `u`, where the job is the lane's only one and its outcome is open: the job's end
is the end of the only job. -/
theorem endsOnlyJob_closeJob (hl : LaneLocal i s u) (hq : (u.lane i).queue = [n]) (hj : u.slot n = some j)
    (hr : j.results[i.val] = none) (r : LaneResult) : EndsOnlyJob s (closeJob u i n r) i n (u.lane i) r := by
  have hlane : (closeJob u i n r).lane i = { u.lane i with queue := [], step := .none } := by
    rw [closeJob_lane, hq]
    simp
  have hloc := hl.trans (closeJob_local u i n r)
  exact ⟨hlane, closeJob_resultOf hj hr r, hloc.1, hloc.2.2⟩

/-- A verdict closes the lane's only job (R56). -/
theorem resolveStep_onlyJob (hq : (u.lane i).queue = [n]) (hj : u.slot n = some j) (v : Verdict) :
    resolveStep i (u, some v) = closeJob u i n ((u.lane i).result j.spec.params true v) := by
  simp only [resolveStep, finishLane, hq, conclude, hj]
  exact nextJob_closeJob hq _

/-- A lane fault that is not of the supply leaves the lane FAULTED with its power, and its only job with the code (R44,
R71, R75). -/
theorem faultsOnlyJob_faultLane (hl : LaneLocal i s u) (hs : (u.lane i).state ≠ .faulted) (hq : (u.lane i).queue = [n])
    (hj : u.slot n = some j) (hr : j.results[i.val] = none) {code : FaultCode} (hc : code.isSupply = false)
    (refused : Bool) :
    FaultsOnlyJob s (faultLane u i code refused) i n (u.lane i) code
      ((u.lane i).result j.spec.params ((u.lane i).step != .none) ((u.lane i).faultVerdict j code refused)) := by
  have hlane : ((releasePin u i).modLane i (fun k => k.enterFaulted code)).lane i
      = ({ u.lane i with pinned := none } : Lane).enterFaulted code := by
    rw [State.lane_modLane_self, releasePin_lane, if_pos rfl]
  have hslot : ((releasePin u i).modLane i (fun k => k.enterFaulted code)).slot n = some j := by
    rw [State.modLane_slot, State.slot_congr (releasePin_frame u i).2.2.1, hj]
  have hloc : LaneLocal i s ((releasePin u i).modLane i (fun k => k.enterFaulted code)) :=
    hl.trans ((releasePin_local u i).trans (modLane_local _ i _))
  have hend := endsOnlyJob_closeJob hloc (by rw [hlane]; exact hq) hslot hr
    ((u.lane i).result j.spec.params ((u.lane i).step != .none) ((u.lane i).faultVerdict j code refused))
  unfold faultLane
  rw [if_neg hs, currentJob_of_head hq hj]
  simp only [hc, Bool.false_eq_true, if_false]
  rw [nextJob_closeJob (by rw [hlane]; exact hq)]
  rw [hlane] at hend
  have hfaulted := hend.lane
  constructor
  case result => exact hend.result
  case ctl => exact hend.ctl
  case others => exact hend.others
  all_goals rw [hfaulted]
  case outputs => exact (Lane.outputsAfter_one (u.lane i) true).2.1
  all_goals rfl

end OnlyJob

end Sys2Proof.Machine
end

section
/-! CERTIFICATES. Training: the pattern, the answer and the failed attempt (R4, R5, R33, R37, R69). -/

namespace Sys2Proof.Machine

section Training

variable {s : State} {i : LaneId}

/-- The end of the pattern starts the training timer of a lane in TRAINING (R4). -/
theorem exec_trainingPatternSent_training (hst : (s.lane i).state = .training) {chars : List Byte}
    (htx : (s.lane i).tx = .pattern chars) :
    exec (.trainingPatternSent i) s = .next (s.setLane i { s.lane i with tx := .idle, training := some 50 }) := by
  simp [exec, execTrainingPatternSent, htx, State.modLane, hst, Config.trainingMs]

/-- With no pattern on TXD none ends. -/
theorem exec_trainingPatternSent_other (htx : ∀ chars : List Byte, (s.lane i).tx ≠ .pattern chars) :
    exec (.trainingPatternSent i) s = .next s := by
  cases h : (s.lane i).tx with
  | idle => simp [exec, execTrainingPatternSent, h]
  | pattern chars => exact absurd h (htx chars)
  | frame bytes live => simp [exec, execTrainingPatternSent, h]

/-- A character that is no answer, or that comes while the timer stands, is discarded (R4). -/
theorem exec_trainingCharacter_discarded {ch : RxChar}
    (h : (s.lane i).training = none ∨ ch.inError = true ∨ ch.data ≠ 0xB3) :
    exec (.trainingCharacterReceived i ch) s = .next s := by
  rcases h with h | h | h
  · simp [exec, execTrainingCharacterReceived, h]
  · simp [exec, execTrainingCharacterReceived, h]
  · have hne : (ch.data == Config.trainingAnswer) = false := beq_eq_false_iff_ne.mpr h
    simp [exec, execTrainingCharacterReceived, hne]

/-- The answer in device FAULT only stops the timer (R33). -/
theorem exec_trainingAnswer_fault (hst : (s.lane i).state = .training) (ht : (s.lane i).training.isSome = true)
    {ch : RxChar} (he : ch.inError = false) (hd : ch.data = 0xB3) (hf : s.ctl.device = .fault) :
    exec (.trainingCharacterReceived i ch) s = .next (s.setLane i { s.lane i with training := none }) := by
  simp [exec, execTrainingCharacterReceived, hst, ht, he, hd, Config.trainingAnswer, hf, State.modLane]

/-- The answer opens the session, whose first IDENTIFY goes out where a request may (R4, R37, R69). -/
theorem exec_trainingAnswer_opens {n : SlotId} {rest : List SlotId} {j : Job} (hst : (s.lane i).state = .training)
    (hq : (s.lane i).queue = n :: rest) (hj : s.slot n = some j) (ht : (s.lane i).training.isSome = true)
    {ch : RxChar} (he : ch.inError = false) (hd : ch.data = 0xB3) (hf : s.ctl.device ≠ .fault) :
    exec (.trainingCharacterReceived i ch) s = .next (send (s.setLane i
      { s.lane i with training := none, nextSeq := 1, rx := none, step := .attachIdentify }) i .identify []) := by
  have hc : currentJob (s.modLane i (fun l => { l with training := none, nextSeq := 1, rx := none })) i = some (n, j) :=
    currentJob_of_head (by simpa using hq) hj
  have hopen : openSession s i = send (s.setLane i
      { s.lane i with training := none, nextSeq := 1, rx := none, step := .attachIdentify }) i .identify [] := by
    unfold openSession
    rw [enterStep_identify (.inl rfl) hc, resolveStep_none, State.modLane_modLane]
  rw [← hopen]
  simp [exec, execTrainingCharacterReceived, hst, ht, he, hd, Config.trainingAnswer, hf]

/-- A failed attempt below the fourth is followed by a fresh reset pulse (R5). -/
theorem exec_trainingTimeout_again {p : AttachParams} (hst : (s.lane i).state = .training)
    (ht : (s.lane i).training.isSome = true) (hp : attachParams s i = some p) (ha : (s.lane i).attempts < 4)
    (hd : s.ctl.device ≠ .fault) :
    exec (.trainingTimeout i) s = .next (s.setLane i { s.lane i with
      training := none, state := .resetting, modePin := true, resetPin := true, resetPulse := some p.resetPulse
      checkWait := none, step := .attachPhase, outputs := (s.lane i).outputsAfter (some true) (some true) none }) := by
  have ha' : ¬ Config.maxAttempts ≤ (s.lane i).attempts := by simpa [Config.maxAttempts] using ha
  simp [exec, execTrainingTimeout, hst, ht, hp, ha', hd, State.modLane, Lane.enterResetting, Lane.driveMode,
    Lane.driveReset, Lane.outputsAfter_eq]

/-- In device FAULT a failed attempt below the fourth only stops the timer (R33). -/
theorem exec_trainingTimeout_fault (hst : (s.lane i).state = .training) (ht : (s.lane i).training.isSome = true)
    (ha : (s.lane i).attempts < 4) (hd : s.ctl.device = .fault) :
    exec (.trainingTimeout i) s = .next (s.setLane i { s.lane i with training := none }) := by
  have ha' : ¬ Config.maxAttempts ≤ (s.lane i).attempts := by simpa [Config.maxAttempts] using ha
  simp [exec, execTrainingTimeout, hst, ht, ha', hd, State.modLane]

/-- The fourth failed attempt is lane fault NO_TARGET (R5). -/
theorem exec_trainingTimeout_last (hst : (s.lane i).state = .training) (ht : (s.lane i).training.isSome = true)
    (ha : 4 ≤ (s.lane i).attempts) :
    exec (.trainingTimeout i) s = .next (laneFault (s.modLane i (fun l => { l with training := none })) i .noTarget) := by
  have ha' : Config.maxAttempts ≤ (s.lane i).attempts := ha
  simp [exec, execTrainingTimeout, hst, ht, ha']

end Training

/-- Settles O38: the pattern's end, the characters, and the timer by the attempts begun. -/
theorem trainingSucceedsOrRetries : Obligations.TrainingSucceedsOrRetries := by
  refine ⟨fun s i n rest j hst hq hj => ⟨fun chars htx => exec_trainingPatternSent_training hst htx,
    exec_trainingPatternSent_other, fun ch => exec_trainingCharacter_discarded, fun ch ht he hd =>
      ⟨exec_trainingAnswer_fault hst ht he hd, fun hf htx ho hrb => ?_, fun hf hrb => ?_⟩⟩,
    fun s i n j p hst ht hq hj hp hstep ho hid hun hr => ⟨fun ha hd => ?_, exec_trainingTimeout_fault hst ht, fun ha => ?_⟩⟩
  · rw [exec_trainingAnswer_opens hst hq hj ht he hd hf,
      send_of_canSend ((canSend_iff _ i).mpr (by simp [hf, htx, ho, hrb, hst]))]
    simp
  · rw [exec_trainingAnswer_opens hst hq hj ht he hd hf, send_of_readback _ _ _ _ (by simpa using hrb)]
  · rw [exec_trainingTimeout_again hst ht (attachParams_of_head hq hj hp (by simp [hstep])) ha hd, ← hstep]
  · have hf := faultsOnlyJob_faultLane (modLane_local s i (fun l => { l with training := none })) (by simp [hst])
      (by simpa using hq) hj hr (code := .noTarget) rfl false
    rw [State.lane_modLane_self] at hf
    refine ⟨_, exec_trainingTimeout_last hst ht ha, hf.state, hf.faultCode, hf.power, hf.resetPin, hf.modePin, hf.outputs,
      hf.queue, hf.result.trans ?_, hf.ctl, hf.others⟩
    simp [Lane.result, Lane.faultVerdict, Lane.resultBody, hp, Params.kind, hstep, ho, hid, hun]

end Sys2Proof.Machine
end

section
/-! CERTIFICATES. The response timer and retransmissions, and the characters that the receiver takes (R3, R8, R22 to R25). -/

namespace Sys2Proof.Machine

/-! ### The response timer -/

section Sent

variable {s : State} {i : LaneId} {bytes : List Byte}

/-- The end of a transmission of the outstanding request starts its timer (R22). -/
theorem exec_frameSent_live {q : Request} {c : Settings} (htx : (s.lane i).tx = .frame bytes true)
    (ho : (s.lane i).outstanding = some q) (hc : s.ctl.inForce = some c) :
    exec (.frameSent i) s = .next (s.setLane i { s.lane i with
      tx := .idle, outstanding := some { q with timer := some c.responseTimeout } }) := by
  simp [exec, execFrameSent, htx, State.modLane, ho, State.responseTimeout, hc]

/-- A training pattern that has waited for TXD goes out (R25; log 10). -/
theorem exec_frameSent_training (htx : (s.lane i).tx = .frame bytes false) (hst : (s.lane i).state = .training) :
    exec (.frameSent i) s = .next (s.setLane i { s.lane i with tx := .pattern [0x55, 0x55, 0x55] }) := by
  simp [exec, execFrameSent, htx, hst, State.modLane, Config.trainingPattern, Config.patternChar]

/-- A frame whose request has ended starts no timer (R25). -/
theorem exec_frameSent_ended (htx : (s.lane i).tx = .frame bytes false) (hst : (s.lane i).state ≠ .training)
    (hstep : (s.lane i).state ≠ .ready ∨ (s.lane i).step = .none) :
    exec (.frameSent i) s = .next (s.setLane i { s.lane i with tx := .idle }) := by
  have hproceed : (s.lane i).state = .ready →
      proceed (s.modLane i (fun l => { l with tx := .idle })) i = (s.modLane i (fun l => { l with tx := .idle }), none) := by
    intro hready
    exact proceed_of_step_none (by simpa using hstep.resolve_left (not_not_intro hready))
  by_cases hready : (s.lane i).state = .ready
  · simp [exec, execFrameSent, htx, hready, hproceed hready]
    rw [State.modLane, ← hready]
  · simp [exec, execFrameSent, htx, hst, hready, State.modLane]

end Sent

section Timeout

variable {s : State} {i : LaneId} {n : SlotId} {j : Job} {q : Request}

/-- A timeout with retries left sends the same frame again (R22). -/
theorem exec_responseTimeout_retry {rest : List SlotId} (ho : (s.lane i).outstanding = some q)
    (hq : (s.lane i).queue = n :: rest) (hj : s.slot n = some j) (ht : q.timer.isSome = true)
    (hr : q.retries < j.spec.retryLimit) :
    exec (.responseTimeout i) s = .next (s.setLane i ((s.lane i).withRetry q)) := by
  have hn : q.timer ≠ none := by simpa [Option.isSome_iff_ne_none] using ht
  simp [exec, execResponseTimeout, ho, hn, retryLimit_of_head hq hj, hr, State.modLane]
  rfl

/-- A timeout with no retry left faults the lane (R22, R39). -/
theorem exec_responseTimeout_fault {rest : List SlotId} (ho : (s.lane i).outstanding = some q)
    (hq : (s.lane i).queue = n :: rest) (hj : s.slot n = some j) (ht : q.timer.isSome = true)
    (hr : j.spec.retryLimit ≤ q.retries) :
    exec (.responseTimeout i) s = .next (faultLane s i (s.lane i).timeoutCode false) := by
  have hn : q.timer ≠ none := by simpa [Option.isSome_iff_ne_none] using ht
  simp [exec, execResponseTimeout, ho, hn, retryLimit_of_head hq hj, Nat.not_lt.mpr hr, laneFault]

end Timeout

/-- The kinds of request that a lane fault leaves unnamed (R37 to R42, R71, R75, R104; log 38). -/
theorem faultKind_eq (j : Job) (q : Request) (refused : Bool) :
    faultKind j q refused =
      if q.kind == .start || ((q.kind == .setRate || (q.kind == .identify && !refused)) && !j.abortMark) then none
      else some q.kind := by
  unfold faultKind
  cases q.kind with
  | identify => cases refused <;> cases j.abortMark <;> rfl
  | setRate => cases j.abortMark <;> rfl
  | _ => rfl

/-- Settles O40: the frame that has gone out by whose it is, and the timeout by the retries used. -/
theorem responseTimerStartsAndRunsOut : Obligations.ResponseTimerStartsAndRunsOut := by
  refine ⟨fun s i bytes => ⟨fun q c => exec_frameSent_live, exec_frameSent_training, exec_frameSent_ended, ?_⟩,
    fun s i n j q ho hq hj hr => ⟨fun ht => ?_, exec_responseTimeout_retry ho hq hj, fun ht hlim hst => ?_⟩⟩
  · rintro (htx | ⟨chars, htx⟩)
    · simp [exec, execFrameSent, htx]
    · simp [exec, execFrameSent, htx]
  · simp [exec, execResponseTimeout, ho, ht]
  · intro unnamed code
    have hsupply : code.isSupply = false := by
      by_cases h : (s.lane i).step = .attachIdentifyAgain
      · simp [code, h, FaultCode.isSupply]
      · simp [code, h, FaultCode.isSupply]
    have hf := faultsOnlyJob_faultLane (.rfl' i s) hst hq hj hr hsupply false
    refine ⟨_, _, exec_responseTimeout_fault ho hq hj ht hlim, hf.state, hf.faultCode, hf.outstanding, hf.identity,
      hf.pinned, hf.resetPin, hf.power, hf.modePin, hf.outputs, hf.queue, hf.result, rfl, ?_, ?_, rfl, hf.ctl, hf.others⟩
    · simp only [Lane.result, Lane.faultVerdict, ho, Option.bind_some, faultKind_eq, unnamed, Bool.not_false,
        Bool.and_true, Bool.or_comm (q.kind == .identify)]
    · simp [Lane.result, Lane.faultVerdict, ho]

end Sys2Proof.Machine
end

section
/-! CERTIFICATES. Characters outside and inside a frame, spoiled frames, and retransmission at once (R3, R8, R9, R24). -/

namespace Sys2Proof.Machine

/-! ### Retransmission at once -/

section AtOnce

variable {s : State} {i : LaneId} {n : SlotId} {rest : List SlotId} {j : Job} {q : Request}

/-- While the timer runs and retries are left the request goes out again (R24). -/
theorem retransmitAtOnce_retry (ho : (s.lane i).outstanding = some q) (hq : (s.lane i).queue = n :: rest)
    (hj : s.slot n = some j) (ht : q.timer.isSome = true) (hr : q.retries < j.spec.retryLimit) :
    retransmitAtOnce s i = s.setLane i ((s.lane i).withRetry q) := by
  simp only [retransmitAtOnce, ho, ht, retryLimit_of_head hq hj, hr, decide_true, Bool.and_true, if_true]
  rfl

/-- Without a running timer, or with no retry left, the request goes on as it was (R24). -/
theorem retransmitAtOnce_goesOn (ho : (s.lane i).outstanding = some q) (hq : (s.lane i).queue = n :: rest)
    (hj : s.slot n = some j) (h : q.timer = none ∨ j.spec.retryLimit ≤ q.retries) : retransmitAtOnce s i = s := by
  rcases h with h | h
  · simp [retransmitAtOnce, ho, h]
  · simp [retransmitAtOnce, ho, retryLimit_of_head hq hj, Nat.not_lt.mpr h]

/-- With nothing outstanding nothing goes out. -/
theorem retransmitAtOnce_idle (ho : (s.lane i).outstanding = none) : retransmitAtOnce s i = s := by
  simp [retransmitAtOnce, ho]

end AtOnce

/-! ### What spoils a frame -/

/-- The command spoils a frame of lane `i`: the gap runs out inside a frame, a character in error comes inside one, or the
characters end in a length that is too long or a check that does not match (R8). -/
def State.spoiledBy (s : State) (i : LaneId) (c : Instr) : Prop :=
  (c = .frameGapTimeout i ∧ (s.lane i).rx.isSome = true) ∨
    (∃ (chars : List Byte) (bad : RxChar), c = .frameSpoiled i chars (some bad) ∧ bad.inError = true ∧
      rxStatus ((s.lane i).received chars) = .inside) ∨
    ∃ chars : List Byte, c = .frameSpoiled i chars none ∧ chars ≠ [] ∧
      (rxStatus ((s.lane i).received chars) = .tooLong ∨ rxStatus ((s.lane i).received chars) = .badCrc)

section Receiver

variable {s : State} {i : LaneId}

/-- Every way of spoiling a frame has the same effect (R8, R24). -/
theorem exec_spoiledBy {c : Instr} (hrx : (s.lane i).receiving = true) (h : s.spoiledBy i c) :
    exec c s = .next (spoilFrame s i) := by
  rcases h with ⟨rfl, h⟩ | ⟨chars, bad, rfl, he, h⟩ | ⟨chars, rfl, hne, h⟩
  · simp [exec, execFrameGapTimeout, hrx, h]
  · simp [exec, execFrameSpoiled, hrx, spoils, he, h]
  · rcases h with h | h
    · simp [exec, execFrameSpoiled, hrx, spoils, hne, h]
    · simp [exec, execFrameSpoiled, hrx, spoils, hne, h]

/-- With the receiver off, or outside a frame, no gap runs out (R3, R8). -/
theorem exec_frameGapTimeout_discarded (h : (s.lane i).receiving = false ∨ (s.lane i).rx = none) :
    exec (.frameGapTimeout i) s = .next s := by
  rcases h with h | h
  · simp [exec, execFrameGapTimeout, h]
  · simp [exec, execFrameGapTimeout, h]

/-- A character in error outside a frame spoils none (R8). -/
theorem exec_frameSpoiled_outside (c : RxChar) (h : (s.lane i).rx = none) :
    exec (.frameSpoiled i [] (some c)) s = .next s := by
  simp [exec, execFrameSpoiled, spoils, Lane.received, h, rxStatus]

/-- A character that keeps the receiver inside a frame is its next field (R8). -/
theorem exec_frameCharacter_inside {ch : RxChar} (hrx : (s.lane i).receiving = true) (he : ch.inError = false)
    (h : rxStatus ((s.lane i).received [ch.data]) = .inside) :
    exec (.frameCharacterReceived i ch) s = .next (s.setLane i
      { s.lane i with rx := some ((s.lane i).received [ch.data]) }) := by
  simp [exec, execFrameCharacterReceived, hrx, he, h, State.modLane]

/-- Outside a frame every character but a start character without error is discarded (R8). -/
theorem exec_frameCharacter_discarded {ch : RxChar} (hrx : (s.lane i).rx = none)
    (h : ch.inError = true ∨ ch.data ≠ 0xC5) : exec (.frameCharacterReceived i ch) s = .next s := by
  rcases h with h | h
  · simp [exec, execFrameCharacterReceived, h]
  · have hne : (ch.data != Config.startChar) = true := bne_iff_ne.mpr h
    simp [exec, execFrameCharacterReceived, Lane.received, hrx, rxStatus, hne]

/-! ### A good frame -/

/-- A good frame is matched, with the receiver outside a frame again (R9). -/
theorem exec_frameReceived_good {chars : List Byte} {seq kind : Byte} {payload : List Byte}
    (hrx : (s.lane i).receiving = true) (h : s.completes i chars seq kind payload) :
    exec (.frameReceived i chars) s = .next (takeFrame (s.setLane i { s.lane i with rx := none }) i seq kind payload) := by
  obtain ⟨hne, hgood⟩ := h
  simp [exec, execFrameReceived, hrx, hne, hgood, State.modLane]

/-- A frame that matches no outstanding request is discarded (R9). -/
theorem takeFrame_unmatched {seq kind : Byte} {payload : List Byte}
    (h : (s.lane i).outstanding = none ∨ ∃ q : Request, (s.lane i).outstanding = some q ∧ q.seq ≠ seq) :
    takeFrame s i seq kind payload = s := by
  unfold takeFrame
  split
  · next q n j ho _ =>
    rcases h with h | ⟨r, hr, hseq⟩
    · rw [h] at ho
      cases ho
    · obtain rfl : r = q := by rw [hr] at ho; exact Option.some.inj ho
      rw [if_pos hseq.symm]
  · rfl

end Receiver

/-- Settles O41: the receiver off and on, outside and inside a frame, and a frame spoiled, taken or unmatched. -/
theorem charactersAndSpoiledFrames : Obligations.CharactersAndSpoiledFrames := by
  refine ⟨⟨fun s i => ⟨exec_frameGapTimeout_discarded, fun chars bad h => ⟨?_, ?_⟩, exec_frameSpoiled_outside⟩,
    fun s i c hrx hc => ?_⟩, fun s i ch => ⟨fun h => ?_, fun _ => exec_frameCharacter_discarded, fun hrx hout he hd => ?_,
      fun part hrx hpart he hin => ?_⟩, fun s i chars seq kind payload hrx hc h => ?_⟩
  · simp [exec, execFrameSpoiled, h]
  · simp [exec, execFrameReceived, h]
  · intro counted
    have hspoil : exec c s = .next (retransmitAtOnce (s.setLane i counted) i) := exec_spoiledBy hrx hc
    have hlane : (s.setLane i counted).lane i = counted := State.lane_setLane_self s i counted
    rw [hspoil]
    refine ⟨fun q n rest j ho hq hj => ⟨fun ht hr => ?_, fun hr => ?_⟩, fun ho => ?_⟩
    · rw [retransmitAtOnce_retry (s := s.setLane i counted) (by rw [hlane]; exact ho) (by rw [hlane]; exact hq) hj ht hr,
        hlane, State.setLane_setLane]
    · rw [retransmitAtOnce_goesOn (s := s.setLane i counted) (by rw [hlane]; exact ho) (by rw [hlane]; exact hq) hj hr]
    · rw [retransmitAtOnce_idle (by rw [hlane]; exact ho)]
  · simp [exec, execFrameCharacterReceived, h]
  · have hreceived : (s.lane i).received [ch.data] = [0xC5] := by simp [Lane.received, hout, hd]
    rw [exec_frameCharacter_inside hrx he (by rw [hreceived]; rfl), hreceived]
  · have hreceived : (s.lane i).received [ch.data] = part ++ [ch.data] := by simp [Lane.received, hpart]
    rw [exec_frameCharacter_inside hrx he (by rw [hreceived]; exact hin), hreceived]
  · rw [exec_frameReceived_good hrx hc, takeFrame_unmatched (by simpa using h)]

end Sys2Proof.Machine
end

section
/-! SUPPORT. A matching frame by what it is to the outstanding request: a breach, a WAIT, a NAK or a good answer (R9, R10,
R12, R23 to R25), and the state in which it is taken. -/

namespace Sys2Proof.Machine

/-! ### What a frame is to the request -/

/-- A WAIT of two bytes that name a time (R10, R23). -/
theorem classify_wait {q : Request} {rate : RateCode} {payload : List Byte} (hl : payload.length = 2)
    (hz : beNat payload ≠ 0) : classify q rate 0x84 payload = .wait (beNat payload) := by
  simp [classify, waitCode, hl, hz]

/-- A NAK with one of the ten reasons (R10, R12). -/
theorem classify_nak {q : Request} {rate : RateCode} {code : Byte} {r : NakReason} (h : NakReason.ofCode code = some r) :
    classify q rate 0x85 [code] = .nak r := by
  simp [classify, waitCode, nakCode, h]

/-- No good answer has the code of a WAIT or of a NAK (R11). -/
theorem ReqKind.goodCode_ne (k : ReqKind) : k.goodCode ≠ waitCode ∧ k.goodCode ≠ nakCode := by
  cases k <;> decide

/-- The request's one good answer, in its form (R10, R11). -/
theorem classify_good {q : Request} {rate : RateCode} {payload : List Byte} (h : goodForm q rate payload = true) :
    classify q rate q.kind.goodCode payload = .good := by
  obtain ⟨hwait, hnak⟩ := ReqKind.goodCode_ne q.kind
  simp [classify, hwait, hnak, h]

/-! ### A matching frame is taken -/

section Take

variable {s : State} {i : LaneId} {n : SlotId} {j : Job} {q : Request} {kind : Byte} {payload : List Byte}
  (ho : (s.lane i).outstanding = some q) (hc : currentJob s i = some (n, j))
include ho hc

theorem takeFrame_breach (h : classify q (s.lane i).rate kind payload = .breach) :
    takeFrame s i q.seq kind payload = faultLane s i .protocol false := by
  simp [takeFrame, ho, hc, h, laneFault]

theorem takeFrame_wait {estimate : Nat} (h : classify q (s.lane i).rate kind payload = .wait estimate) :
    takeFrame s i q.seq kind payload = takeWait s i q estimate := by
  simp [takeFrame, ho, hc, h]

theorem takeFrame_nakFrame (h : classify q (s.lane i).rate kind payload = .nak .frame) :
    takeFrame s i q.seq kind payload = retransmitAtOnce s i := by
  simp [takeFrame, ho, hc, h]

theorem takeFrame_nakIdentify {r : NakReason} (h : classify q (s.lane i).rate kind payload = .nak r) (hr : r ≠ .frame)
    (hk : q.kind = .identify) : takeFrame s i q.seq kind payload = faultLane s i .protocol true := by
  simp [takeFrame, ho, hc, h, hr, hk, identifyRefused]

theorem takeFrame_refused {r : NakReason} (h : classify q (s.lane i).rate kind payload = .nak r) (hr : r ≠ .frame)
    (hk : q.kind ≠ .identify) : takeFrame s i q.seq kind payload = resolveStep i (refuse s i j q r) := by
  simp [takeFrame, ho, hc, h, hr, hk]

theorem takeFrame_classChanged (h : classify q (s.lane i).rate kind payload = .good) (hk : q.kind = .identify)
    (hclass : classChanged (s.lane i) payload = true) :
    takeFrame s i q.seq kind payload = faultLane s i .protocol false := by
  simp [takeFrame, ho, hc, h, hk, hclass, laneFault]

theorem takeFrame_good (h : classify q (s.lane i).rate kind payload = .good) (hk : q.kind ≠ .identify) :
    takeFrame s i q.seq kind payload = resolveStep i (goodAnswer s i n j q payload) := by
  simp [takeFrame, ho, hc, h, hk]

end Take

/-! ### The state in which an engaged lane takes a frame -/

/-- The lane's receiver stands outside a frame (R9). -/
def State.frameTaken (s : State) (i : LaneId) : State := s.setLane i { s.lane i with rx := none }

@[simp] theorem State.frameTaken_lane (s : State) (i : LaneId) : (s.frameTaken i).lane i = { s.lane i with rx := none } :=
  State.lane_setLane_self s i _

theorem State.frameTaken_local (s : State) (i : LaneId) : LaneLocal i s (s.frameTaken i) :=
  modLane_local s i (fun l => { l with rx := none })

/-- A lane that takes frames is not FAULTED (R3). -/
theorem Lane.state_of_receiving {l : Lane} (h : l.receiving = true) : l.state ≠ .faulted := by
  intro hs
  simp [Lane.receiving, hs] at h

section Engaged

variable {s : State} {i : LaneId} {n : SlotId} {j : Job} {q : Request} (h : s.engaged i n j q)
include h

theorem State.engaged.outstanding_taken : ((s.frameTaken i).lane i).outstanding = some q := by
  obtain ⟨ho, -⟩ := h
  simpa using ho

theorem State.engaged.queue_taken : ((s.frameTaken i).lane i).queue = [n] := by
  obtain ⟨-, hq, -⟩ := h
  simpa using hq

theorem State.engaged.slot_taken : (s.frameTaken i).slot n = some j := by
  obtain ⟨-, -, hj, -⟩ := h
  exact hj

theorem State.engaged.currentJob_taken : currentJob (s.frameTaken i) i = some (n, j) :=
  currentJob_of_head h.queue_taken h.slot_taken

/-- A frame that carries the request's seq is matched against it (R9). -/
theorem State.engaged.exec_frameReceived {chars payload : List Byte} {kind : Byte}
    (hf : s.completes i chars q.seq kind payload) :
    exec (.frameReceived i chars) s = .next (takeFrame (s.frameTaken i) i q.seq kind payload) := by
  obtain ⟨-, -, -, -, hrx⟩ := h
  exact exec_frameReceived_good hrx hf

/-- A lane fault on an engaged lane: FAULTED with its power, the job with the code (R44, R75). -/
theorem State.engaged.faults {code : FaultCode} (hcode : code.isSupply = false) (refused : Bool) :
    FaultsOnlyJob s (faultLane (s.frameTaken i) i code refused) i n ((s.frameTaken i).lane i) code
      (((s.frameTaken i).lane i).result j.spec.params (((s.frameTaken i).lane i).step != .none)
        (((s.frameTaken i).lane i).faultVerdict j code refused)) := by
  have hqueue := h.queue_taken
  have hslot := h.slot_taken
  obtain ⟨-, -, -, hr, hrx⟩ := h
  exact faultsOnlyJob_faultLane (State.frameTaken_local s i)
    (by rw [State.frameTaken_lane]; exact Lane.state_of_receiving hrx) hqueue hslot hr hcode refused

end Engaged

end Sys2Proof.Machine
end

section
/-! CERTIFICATES. WAITs and NAKs to an outstanding request (R12, R22 to R24, R71, R104). -/

namespace Sys2Proof.Machine

section Waits

variable {s : State} {i : LaneId} {n : SlotId} {j : Job} {q : Request}

/-- A WAIT below the 256th is counted and restarts a timer that runs (R23). -/
theorem takeWait_counted {c : Settings} (hc : s.ctl.inForce = some c) (hw : q.waits < 255) (estimate : Nat) :
    takeWait s i q estimate = s.setLane i { s.lane i with
      outstanding := some { q with
        waits := q.waits + 1
        timer := q.timer.map (fun _ => min (estimate + c.responseTimeout) c.waitCap) } } := by
  have hmax : ¬ Config.maxWaits ≤ q.waits + 1 := by simp only [Config.maxWaits]; omega
  simp [takeWait, hmax, State.responseTimeout, State.waitCap, hc, State.modLane]

/-- The 256th WAIT is lane fault TARGET_STALLED (R23). -/
theorem takeWait_last (hw : q.waits = 255) (estimate : Nat) :
    takeWait s i q estimate = faultLane s i .targetStalled false := by
  simp [takeWait, hw, Config.maxWaits, laneFault]

/-- The count of WAITs of every request that lane `i` has outstanding is `waits`. -/
def State.waitsStand (s : State) (i : LaneId) (waits : Nat) : Prop :=
  ∀ r : Request, (s.lane i).outstanding = some r → r.waits = waits

/-- A retransmission at once keeps the count of WAITs (R23). -/
theorem retransmitAtOnce_waits {w : Nat} (h : s.waitsStand i w) : (retransmitAtOnce s i).waitsStand i w := by
  unfold retransmitAtOnce
  split
  · exact h
  next r ho =>
  split
  · intro u hu
    rw [State.lane_modLane_self] at hu
    obtain rfl : { r with retries := r.retries + 1, timer := none } = u := Option.some.inj hu
    exact h r ho
  · exact h

theorem spoilFrame_waits {w : Nat} (h : s.waitsStand i w) : (spoilFrame s i).waitsStand i w := by
  refine retransmitAtOnce_waits fun r hr => h r ?_
  rwa [State.lane_modLane_self] at hr

/-- Neither a timeout nor a spoiled frame nor a NAK FRAME changes the count of WAITs (R23). -/
theorem waits_kept (h : s.engaged i n j q) {k : Instr}
    (hk : k = .responseTimeout i ∨ k = .frameGapTimeout i ∨
      (∃ (cs : List Byte) (b : Option RxChar), k = .frameSpoiled i cs b) ∨
      ∃ cs : List Byte, k = .frameReceived i cs ∧ s.completes i cs q.seq 0x85 [1])
    {u : State} (hu : exec k s = .next u) : u.waitsStand i q.waits := by
  obtain ⟨ho, hq, hj, hr, hrx⟩ := id h
  have hstand : s.waitsStand i q.waits := fun r hr => by rw [ho] at hr; rw [Option.some.inj hr]
  have next_inj : ∀ {t : State}, (.next t : Result) = .next u → t = u := fun e => by simpa using e
  rcases hk with rfl | rfl | ⟨cs, b, rfl⟩ | ⟨cs, rfl, hf⟩
  · simp only [exec, execResponseTimeout, ho] at hu
    split at hu
    · rwa [← next_inj hu]
    split at hu
    · rw [← next_inj hu]
      intro r hr
      rw [State.lane_modLane_self] at hr
      obtain rfl : { q with retries := q.retries + 1, timer := none } = r := Option.some.inj hr
      rfl
    · rw [← next_inj hu]
      have hcode : (s.lane i).timeoutCode.isSupply = false := by
        unfold Lane.timeoutCode
        split
        · rfl
        · rfl
      intro r hr'
      unfold laneFault at hr'
      rw [(faultsOnlyJob_faultLane (.rfl' i s) (Lane.state_of_receiving hrx) hq hj hr hcode false).outstanding] at hr'
      cases hr'
  · simp only [exec, execFrameGapTimeout] at hu
    split at hu
    · rw [← next_inj hu]; exact spoilFrame_waits hstand
    · rwa [← next_inj hu]
  · simp only [exec, execFrameSpoiled] at hu
    split at hu
    · rw [← next_inj hu]; exact spoilFrame_waits hstand
    · rwa [← next_inj hu]
  · rw [h.exec_frameReceived hf, takeFrame_nakFrame h.outstanding_taken h.currentJob_taken (classify_nak rfl)] at hu
    rw [← next_inj hu]
    refine retransmitAtOnce_waits fun r hr => hstand r ?_
    rwa [State.frameTaken_lane] at hr

end Waits

/-- Settles O42: a matching WAIT by how many came before it, and the commands that send the request again. -/
theorem waitRestartsTheTimer : Obligations.WaitRestartsTheTimer := by
  intro s i n j q c chars payload h hf hl hz hc
  have hexec : exec (.frameReceived i chars) s = .next (takeWait (s.frameTaken i) i q (beNat payload)) := by
    rw [h.exec_frameReceived hf, takeFrame_wait h.outstanding_taken h.currentJob_taken (classify_wait hl hz)]
  refine ⟨fun hw => ?_, fun hw => ?_, fun k u r hk hu hr => waits_kept h hk hu r hr⟩
  · rw [hexec, takeWait_counted (s := s.frameTaken i) hc hw, State.frameTaken_lane]
    simp [State.frameTaken]
  · have hfault := h.faults (code := .targetStalled) rfl false
    rw [takeWait_last hw] at hexec
    refine ⟨_, hexec, hfault.state, hfault.faultCode, hfault.outstanding, ?_, hfault.queue, ?_, hfault.ctl, hfault.others⟩
    · rw [hfault.power, State.frameTaken_lane]
    · rw [outcomeOf_eq_resultOf, hfault.result]
      rfl

end Sys2Proof.Machine
end

section
/-! CERTIFICATES. NAKs: the one that asks for the frame again, and those that refuse the request (R12, R24, R71, R104). -/

namespace Sys2Proof.Machine

/-- The lane once its request has been refused: READY without a pin, with the refusal kept, and an attempt spent where the
UNLOCK failed (R12, R25, R104). -/
def Lane.refused (l : Lane) (q : Request) (r : NakReason) : Lane :=
  { l with
    pinned := none, outstanding := none, state := .ready, tx := l.tx.orphaned
    lastRefusal := some { reason := r, kind := q.kind, addr := requestAddr q.kind q.payload }
    identity := if q.kind = .unlock ∧ r = .auth then l.identity.map (fun d => { d with attempts := d.attempts - 1 })
      else l.identity }

/-- The end of a refused request (R12, R25, R104). -/
theorem refuse_lane (s : State) (i : LaneId) (j : Job) (q : Request) (r : NakReason) :
    (refuse s i j q r).1.lane i = (s.lane i).refused q r := by
  by_cases h : q.kind = .unlock ∧ r = .auth
  · simp [refuse, h, releasePin_lane, Lane.endRequest, Lane.spendAttempt, Lane.refused]
  · have h' : (decide (q.kind = .unlock) && decide (r = .auth)) = false := by simpa using h
    simp only [refuse, h', Bool.false_eq_true, if_false, State.lane_modLane_self, releasePin_lane, if_true, Lane.endRequest,
      Lane.refused, h]

/-- A refusal changes no slot. -/
theorem refuse_slots (s : State) (i : LaneId) (j : Job) (q : Request) (r : NakReason) :
    (refuse s i j q r).1.slots = s.slots := by
  unfold refuse
  dsimp only
  split
  · simp
  · simp

/-- The verdict on a refused request of a job with no mark (R71, R104). -/
theorem refusalVerdict_unmarked {j : Job} (ha : j.abortMark = false) (hi : j.imageFailed = none) (q : Request)
    (r : NakReason) : refusalVerdict j q r =
      { outcome := if q.kind = .unlock ∧ r = .auth then .authRejected else .targetRefused
        nak := some r, kind := some q.kind, addr := requestAddr q.kind q.payload } := by
  by_cases h : q.kind = .unlock ∧ r = .auth
  · simp [refusalVerdict, ha, hi, h, requestAddr]
  · have h' : (decide (q.kind = .unlock) && decide (r = .auth)) = false := by simpa using h
    simp [refusalVerdict, ha, hi, h, h']

/-- Settles O44: a NAK FRAME by timer and retries, and another reason by what it refuses. -/
theorem nakRetransmitsOrRefuses : Obligations.NakRetransmitsOrRefuses := by
  intro s i n j q chars code r h hf hcode
  have hnak : classify q ((s.frameTaken i).lane i).rate 0x85 [code] = .nak r := classify_nak hcode
  have hlane := State.frameTaken_lane s i
  refine ⟨fun hr ht hlt => ?_, fun hr hstop => ?_, fun hr hk hw => ?_⟩
  · subst hr
    rw [h.exec_frameReceived hf, takeFrame_nakFrame h.outstanding_taken h.currentJob_taken hnak,
      retransmitAtOnce_retry h.outstanding_taken h.queue_taken h.slot_taken ht hlt, hlane]
    simp [State.frameTaken]
  · subst hr
    rw [h.exec_frameReceived hf, takeFrame_nakFrame h.outstanding_taken h.currentJob_taken hnak,
      retransmitAtOnce_goesOn h.outstanding_taken h.queue_taken h.slot_taken hstop]
    rfl
  · obtain ⟨-, -, -, hres, ha, hi, -, -⟩ := hw
    have hrefused := refuse_lane (s.frameTaken i) i j q r
    have hqueue : ((refuse (s.frameTaken i) i j q r).1.lane i).queue = [n] := by rw [hrefused]; exact h.queue_taken
    have hslot : (refuse (s.frameTaken i) i j q r).1.slot n = some j :=
      (State.slot_congr (refuse_slots (s.frameTaken i) i j q r) n).trans h.slot_taken
    obtain ⟨t, hexec, hend⟩ : ∃ t : State, exec (.frameReceived i chars) s = .next t ∧
        EndsOnlyJob s t i n ((refuse (s.frameTaken i) i j q r).1.lane i)
          (((refuse (s.frameTaken i) i j q r).1.lane i).result j.spec.params true (refusalVerdict j q r)) := by
      refine ⟨_, ?_, endsOnlyJob_closeJob ((State.frameTaken_local s i).trans (refuse_local (s.frameTaken i) i j q r))
        hqueue hslot hres _⟩
      rw [h.exec_frameReceived hf, takeFrame_refused h.outstanding_taken h.currentJob_taken hnak hr hk]
      exact congrArg Host.Outcome.next (resolveStep_onlyJob hqueue hslot _)
    have hv := refusalVerdict_unmarked ha hi q r
    rw [hrefused, hlane] at hend
    refine ⟨t, (Lane.refused { s.lane i with rx := none } q r).result j.spec.params true (refusalVerdict j q r), hexec, ?_⟩
    rw [hend.lane]
    exact ⟨rfl, rfl, rfl, rfl, rfl, rfl, rfl, hend.result, congrArg Verdict.nak hv, congrArg Verdict.kind hv,
      congrArg Verdict.addr hv, fun hauth => ⟨(congrArg Verdict.outcome hv).trans (if_pos hauth), if_pos hauth⟩,
      fun hauth => ⟨(congrArg Verdict.outcome hv).trans (if_neg hauth), if_neg hauth⟩, hend.ctl, hend.others⟩

end Sys2Proof.Machine
end

section
/-! CERTIFICATES. The good answers that end a job of one request (R25, R42, R61, R70, R104, R107). -/

namespace Sys2Proof.Machine

/-- The state in which a good answer has its effect: the pin is released and the request has ended (R25, R101). -/
def State.answered (s : State) (i : LaneId) : State := (releasePin s i).modLane i Lane.endRequest

theorem State.answered_lane (s : State) (i : LaneId) :
    (s.answered i).lane i = { s.lane i with pinned := none, outstanding := none, state := .ready, tx := (s.lane i).tx.orphaned } := by
  simp [State.answered, releasePin_lane, Lane.endRequest]

theorem State.answered_local (s : State) (i : LaneId) : LaneLocal i s (s.answered i) :=
  (releasePin_local s i).trans (modLane_local _ i _)

theorem State.answered_slots (s : State) (i : LaneId) : (s.answered i).slots = s.slots := by simp [State.answered]

/-- The count of a pinned entry falls by one with its release (R101). -/
theorem State.answered_cred {s : State} {i : LaneId} {c : CredId} (h : (s.lane i).pinned = some c) :
    ((s.answered i).cred c).pins = (s.cred c).pins - 1 := by
  simp [State.answered, releasePin, h]

/-- A good answer to an unmarked job has its usual effect, and the step goes on (R25). -/
theorem goodAnswer_unmarked {s : State} {i : LaneId} {n : SlotId} {j : Job} (ha : j.abortMark = false)
    (hi : j.imageFailed = none) (q : Request) (payload : List Byte) :
    goodAnswer s i n j q payload =
      afterAnswer (answerEffect (s.answered i) i n j q payload) i n j (s.lane i) q payload := by
  simp [goodAnswer, ha, hi, State.answered]

section Ack

variable {s : State} {i : LaneId} {n : SlotId} {j : Job} {q : Request} {chars payload : List Byte}

/-- A good answer whose usual effect is the change `f` of the lane, and after which the job is done: the job ends OK, and
the lane stands as `f` leaves it (R25, R56). -/
theorem State.working.ends_ok (hw : s.working i n j q) (hf : s.completes i chars q.seq q.kind.goodCode payload)
    (hgood : goodForm q (s.lane i).rate payload = true) (hk : q.kind ≠ .identify) {f : Lane → Lane}
    (hqueue : ∀ l, (f l).queue = l.queue)
    (heffect : answerEffect ((s.frameTaken i).answered i) i n j q payload = ((s.frameTaken i).answered i).modLane i f)
    (hafter : ∀ t : State, afterAnswer t i n j ((s.frameTaken i).lane i) q payload = (t, some (Verdict.plain .ok))) :
    ∃ t : State, exec (.frameReceived i chars) s = .next t ∧ t.outcomeOf n i = some .ok ∧
      t.lane i = { f { s.lane i with
        rx := none, pinned := none, outstanding := none, state := .ready, tx := (s.lane i).tx.orphaned } with
          queue := [], step := .none } ∧
      (∀ c : CredId, (s.lane i).pinned = some c → (t.cred c).pins = (s.cred c).pins - 1) ∧
      t.ctl = s.ctl ∧ ∀ k : LaneId, k ≠ i → t.lane k = s.lane k := by
  obtain ⟨ho, hq, hj, hr, ha, hi, hrx, -⟩ := hw
  have h : s.engaged i n j q := ⟨ho, hq, hj, hr, hrx⟩
  have hlane : (((s.frameTaken i).answered i).modLane i f).lane i = f { s.lane i with
      rx := none, pinned := none, outstanding := none, state := .ready, tx := (s.lane i).tx.orphaned } := by
    rw [State.lane_modLane_self, State.answered_lane, State.frameTaken_lane]
  have hqueue' : ((((s.frameTaken i).answered i).modLane i f).lane i).queue = [n] := by rw [hlane, hqueue]; exact hq
  have hslot : (((s.frameTaken i).answered i).modLane i f).slot n = some j :=
    (State.slot_congr (State.answered_slots (s.frameTaken i) i) n).trans h.slot_taken
  have hloc : LaneLocal i s (((s.frameTaken i).answered i).modLane i f) :=
    (State.frameTaken_local s i).trans ((State.answered_local _ i).trans (modLane_local _ i f))
  have hend := endsOnlyJob_closeJob hloc hqueue' hslot hr
    (((((s.frameTaken i).answered i).modLane i f).lane i).result j.spec.params true (Verdict.plain .ok))
  refine ⟨_, ?_, ?_, hend.lane.trans (by rw [hlane]), fun c hc => ?_, hend.ctl, hend.others⟩
  · rw [h.exec_frameReceived hf, takeFrame_good h.outstanding_taken h.currentJob_taken
      (classify_good (by rw [State.frameTaken_lane]; exact hgood)) hk, goodAnswer_unmarked ha hi, heffect, hafter,
      resolveStep_onlyJob hqueue' hslot]
  · rw [outcomeOf_eq_resultOf, hend.result]
    rfl
  · have hpin : ((s.frameTaken i).lane i).pinned = some c := by rw [State.frameTaken_lane]; exact hc
    have hcred := State.answered_cred hpin
    unfold State.cred at hcred ⊢
    rw [closeJob_creds]
    exact hcred

end Ack

/-- Settles O45: the four answers, each by its effect on the lane. -/
theorem acksThatFinishAJob : Obligations.AcksThatFinishAJob := by
  intro s i n j q chars payload hw hf hgood hcode hcase
  rw [← hcode] at hf
  have hstep : (((s.frameTaken i).answered i).lane i).step = (s.lane i).step := by
    rw [State.answered_lane, State.frameTaken_lane]
  rcases hcase with ⟨hk, hst, level, hp⟩ | ⟨hk, hst⟩ | ⟨hk, hst⟩ | ⟨hk, hst⟩
  · obtain ⟨t, hexec, hok, hlane, -, hctl, hothers⟩ := hw.ends_ok hf hgood (by simp [hk]) (f := fun l => l.setLevel level)
      (fun _ => rfl) (by simp [answerEffect, hstep, hst, hp]) (fun t => by simp [afterAnswer, hst])
    refine ⟨t, hexec, hok, ?_⟩
    rw [hlane]
    refine ⟨rfl, rfl, rfl, rfl, rfl, fun level' hp' _ => ?_, by simp [hk], by simp [hk], by simp [hk], hctl, hothers⟩
    obtain rfl : level = level' := by rw [hp] at hp'; exact Params.protect.inj hp'
    exact ⟨rfl, rfl⟩
  · obtain ⟨t, hexec, hok, hlane, -, hctl, hothers⟩ := hw.ends_ok hf hgood (by simp [hk])
      (f := fun l => l.setLevel (payload.getD 0 0)) (fun _ => rfl) (by simp [answerEffect, hstep, hst])
      (fun t => by simp [afterAnswer, hst])
    refine ⟨t, hexec, hok, ?_⟩
    rw [hlane]
    exact ⟨rfl, rfl, rfl, rfl, rfl, by simp [hk], fun _ => ⟨rfl, rfl⟩, by simp [hk], by simp [hk], hctl, hothers⟩
  · obtain ⟨t, hexec, hok, hlane, -, hctl, hothers⟩ := hw.ends_ok hf hgood (by simp [hk]) (f := Lane.enterReleased)
      (fun _ => rfl) (by simp [answerEffect, hstep, hst]) (fun t => by simp [afterAnswer, hst])
    refine ⟨t, hexec, hok, ?_⟩
    rw [hlane]
    refine ⟨rfl, rfl, rfl, rfl, rfl, by simp [hk], by simp [hk], fun _ => ⟨rfl, rfl, rfl, rfl, ?_⟩, by simp [hk], hctl, hothers⟩
    exact (Lane.outputsAfter_one (s.lane i) false).1
  · obtain ⟨t, hexec, hok, hlane, hpins, hctl, hothers⟩ := hw.ends_ok hf hgood (by simp [hk])
      (f := fun l => { l with unlocked := l.identity.isSome }) (fun _ => rfl) (by simp [answerEffect, hstep, hst])
      (fun t => by simp [afterAnswer, hst])
    refine ⟨t, hexec, hok, ?_⟩
    rw [hlane]
    exact ⟨rfl, rfl, rfl, rfl, rfl, by simp [hk], by simp [hk], by simp [hk], fun _ => ⟨rfl, rfl, rfl, hpins⟩, hctl, hothers⟩

end Sys2Proof.Machine
end

section
/-! CERTIFICATES. The forms of the good answers, and the matching frames that break the protocol (R9, R10, R12, R13, R37,
R39, R75). -/

namespace Sys2Proof.Machine

/-! ### Fields of a payload -/

/-- A number of `n` bytes is below 256 to the `n`. -/
theorem beNat_lt (bs : List Byte) : beNat bs < 256 ^ bs.length := by
  induction bs using List.reverseRecOn with
  | nil => simp [beNat]
  | append_singleton bs b ih =>
    have hb := b.isLt
    have hstep : beNat (bs ++ [b]) = beNat bs * 256 + b.toNat := by simp [beNat]
    rw [hstep, List.length_append, List.length_singleton, Nat.pow_succ]
    omega

/-- A field of `len` bytes is below 256 to the `len`. -/
theorem beField_lt (p : List Byte) (off len : Nat) : beField p off len < 256 ^ len :=
  (beNat_lt _).trans_le (Nat.pow_le_pow_right (by omega) (by simp [slice]))

/-- A field of one byte is that byte. -/
theorem beField_one {p : List Byte} {off : Nat} (h : off < p.length) : beField p off 1 = (p.getD off 0).toNat := by
  have hslice : slice p off 1 = [p[off]] := by rw [slice, List.drop_eq_getElem_cons h]; rfl
  simp [beField, hslice, beNat, h]

/-! ### The identity record that a HELLO may hold -/

/-- The sector sizes are the powers of two from 256 to 65 536 (R13). -/
theorem sectorSizes_contains (n : Nat) : sectorSizes.contains n = true ↔ ∃ k : Nat, 8 ≤ k ∧ k ≤ 16 ∧ n = 2 ^ k := by
  have hpowers : sectorSizes = (List.range' 8 9).map (2 ^ ·) := by decide
  rw [hpowers, List.contains_iff_mem, List.mem_map]
  simp only [List.mem_range'_1]
  constructor
  · rintro ⟨k, hk, rfl⟩
    exact ⟨k, by omega, by omega, rfl⟩
  · rintro ⟨k, h8, h16, rfl⟩
    exact ⟨k, by omega, rfl⟩

/-- The write granules are the powers of two up to 16 (R13). -/
theorem granules_contains (n : Nat) : [1, 2, 4, 8, 16].contains n = true ↔ ∃ k : Nat, k ≤ 4 ∧ n = 2 ^ k := by
  have hpowers : [1, 2, 4, 8, 16] = (List.range 5).map (2 ^ ·) := by decide
  rw [hpowers, List.contains_iff_mem, List.mem_map]
  simp only [List.mem_range]
  constructor
  · rintro ⟨k, hk, rfl⟩
    exact ⟨k, by omega, rfl⟩
  · rintro ⟨k, h4, rfl⟩
    exact ⟨k, by omega, rfl⟩

/-- The values of R13 in the fields of a 24-byte HELLO. -/
theorem parseIdentity_accepted {p : List Byte} (hl : p.length = 24) (rate : RateCode) :
    (parseIdentity p).accepted rate = true ↔
      beField p 4 4 + beField p 8 4 ≤ 2 ^ 32 ∧ 1048576 ≤ beField p 8 4 ∧ beField p 8 4 ≤ 16777216 ∧
        beField p 8 4 % beField p 12 4 = 0 ∧ (∃ k : Nat, 8 ≤ k ∧ k ≤ 16 ∧ beField p 12 4 = 2 ^ k) ∧
        (∃ k : Nat, k ≤ 4 ∧ beField p 16 1 = 2 ^ k) ∧ 16 ≤ beField p 17 1 ∧ beField p 17 1 ≤ 128 ∧
        beField p 17 1 % beField p 16 1 = 0 ∧ beField p 3 1 ≤ 2 ∧ beField p 19 1 ≤ 15 ∧
        (p.getD 20 0).getLsbD rate.val = true := by
  have hword : ∀ off, (BitVec.ofNat 32 (beField p off 4)).toNat = beField p off 4 := by
    intro off
    rw [BitVec.toNat_ofNat, Nat.mod_eq_of_lt]
    exact beField_lt p off 4
  have hbyte : ∀ off < 24, (p.getD off 0).toNat = beField p off 1 := fun off h => (beField_one (by omega)).symm
  simp only [Identity.accepted, parseIdentity, hword, hbyte 3 (by omega), hbyte 16 (by omega), hbyte 17 (by omega),
    hbyte 19 (by omega), Bool.and_eq_true, decide_eq_true_eq, beq_iff_eq, sectorSizes_contains, granules_contains,
    Config.mib]
  tauto

/-- The good answer's form, kind by kind (R10, R13). -/
theorem goodForm_iff (q : Request) (rate : RateCode) (payload : List Byte) :
    goodForm q rate payload = true ↔
      match q.kind with
      | .identify => payload.length = 24 ∧ (parseIdentity payload).accepted rate = true
      | .erase => payload.length = 1 ∧ (payload.getD 0 0).toNat ≤ 2
      | .sum => payload.length = 4
      | .read => payload.length = beField q.payload 4 2
      | .unlock => payload = []
      | .write => payload = []
      | .protect => payload = []
      | .setRate => payload = []
      | .start => payload = [] := by
  unfold goodForm
  cases q.kind <;> simp [readLength]

/-! ### Frames that break the protocol -/

/-- The ten reason bytes are 1 to 10 (R12). -/
theorem NakReason.ofCode_isSome (b : Byte) : (NakReason.ofCode b).isSome = true ↔ 1 ≤ b.toNat ∧ b.toNat ≤ 10 := by
  revert b
  decide

/-- Reason byte 1 alone is FRAME (R12). -/
theorem NakReason.ofCode_frame (b : Byte) : NakReason.ofCode b = some .frame ↔ b = 1 := by
  revert b
  decide

/-- The frame is a NAK other than FRAME, with a reason that R12 lists. -/
def nakOther (kind : Byte) (payload : List Byte) : Bool :=
  kind == 0x85 && (match payload with
    | [b] => decide (2 ≤ b.toNat ∧ b.toNat ≤ 10)
    | _ => false)

theorem nakOther_of_ne {kind : Byte} (h : kind ≠ 0x85) (payload : List Byte) : nakOther kind payload = false := by
  unfold nakOther
  rw [beq_eq_false_iff_ne.mpr h, Bool.false_and]

/-- The frame breaks the protocol by its kind or its form (R9, R10), refuses an IDENTIFY (R37), or brings another device
class after a rate change (R39). -/
inductive Breaks (l : Lane) (q : Request) (kind : Byte) (payload : List Byte) : Prop where
  | kind : kind ≠ 0x84 → kind ≠ 0x85 → kind ≠ q.kind.goodCode → Breaks l q kind payload
  | wait : kind = 0x84 → ¬ (payload.length = 2 ∧ beNat payload ≠ 0) → Breaks l q kind payload
  | nak : kind = 0x85 → (¬ ∃ b : Byte, payload = [b] ∧ 1 ≤ b.toNat ∧ b.toNat ≤ 10) → Breaks l q kind payload
  | form : kind = q.kind.goodCode → goodForm q l.rate payload = false → Breaks l q kind payload
  | refused (r : NakReason) : kind = 0x85 → q.kind = .identify → (∃ b : Byte, payload = [b] ∧ b ≠ 1 ∧
      NakReason.ofCode b = some r) → Breaks l q kind payload
  | deviceClass : kind = q.kind.goodCode → q.kind = .identify → goodForm q l.rate payload = true →
      classChanged l payload = true → Breaks l q kind payload

/-- A HELLO after a rate change whose device class is not the record's (R39). -/
theorem classChanged_of_ne {l : Lane} {d : Identity} {payload : List Byte} (hst : l.step = .attachIdentifyAgain)
    (hd : l.identity = some d) (hne : d.deviceClass.toNat ≠ beField payload 0 2) : classChanged l payload = true := by
  have hclass : d.deviceClass ≠ (parseIdentity payload).deviceClass := by
    intro h
    apply hne
    rw [h]
    simp only [parseIdentity]
    have hlt : beField payload 0 2 < 2 ^ 16 := beField_lt payload 0 2
    rw [BitVec.toNat_ofNat, Nat.mod_eq_of_lt hlt]
  simp [classChanged, hst, hd, hclass]

/-- A NAK of another length or with another byte than a reason's is a breach (R10). -/
theorem classify_nak_breach {q : Request} {rate : RateCode} {payload : List Byte}
    (h : ¬ ∃ b : Byte, payload = [b] ∧ 1 ≤ b.toNat ∧ b.toNat ≤ 10) : classify q rate 0x85 payload = .breach := by
  have hcodes : (0x85 : Byte) ≠ waitCode ∧ (0x85 : Byte) = nakCode := by decide
  unfold classify
  rw [if_neg hcodes.1, if_pos hcodes.2]
  split
  · next b =>
    have hb : NakReason.ofCode b = none := by
      rw [← Option.not_isSome_iff_eq_none, NakReason.ofCode_isSome]
      exact fun hr => h ⟨b, rfl, hr⟩
    rw [hb]
  · rfl

/-- Reason bytes other than FRAME's are 2 to 10 (R12). -/
theorem reason_range {b : Byte} {r : NakReason} (hb : b ≠ 1) (h : NakReason.ofCode b = some r) :
    2 ≤ b.toNat ∧ b.toNat ≤ 10 := by
  obtain ⟨h1, h10⟩ := (NakReason.ofCode_isSome b).mp (by simp [h])
  have hne : b.toNat ≠ 1 := fun h1 => hb (BitVec.eq_of_toNat_eq h1)
  omega

/-- A frame that breaks the protocol is lane fault PROTOCOL, a refusal of IDENTIFY where it is one (R9, R37, R39). -/
theorem takeFrame_of_breaks {s : State} {i : LaneId} {n : SlotId} {j : Job} {q : Request} {kind : Byte}
    {payload : List Byte} (ho : (s.lane i).outstanding = some q) (hc : currentJob s i = some (n, j))
    (h : Breaks (s.lane i) q kind payload) :
    takeFrame s i q.seq kind payload = faultLane s i .protocol (nakOther kind payload) := by
  obtain ⟨hgoodWait, hgoodNak⟩ := ReqKind.goodCode_ne q.kind
  cases h with
  | kind hw hn hg =>
    rw [nakOther_of_ne hn]
    exact takeFrame_breach ho hc (by simp only [classify, waitCode, nakCode, hw, hn, hg, if_false])
  | wait hk hform =>
    subst hk
    rw [show nakOther 0x84 payload = false from rfl]
    refine takeFrame_breach ho hc ?_
    have hform' : (payload.length == 2 && beNat payload != 0) = false := by simpa using hform
    simp [classify, waitCode, hform']
  | nak hk hform =>
    subst hk
    have hother : nakOther 0x85 payload = false := by
      unfold nakOther
      split
      · next b =>
        have : ¬ (2 ≤ b.toNat ∧ b.toNat ≤ 10) := fun hb => hform ⟨b, rfl, by omega, hb.2⟩
        simp [this]
      · rfl
    rw [hother]
    exact takeFrame_breach ho hc (classify_nak_breach hform)
  | form hk hform =>
    rw [nakOther_of_ne (by rw [hk]; exact hgoodNak)]
    exact takeFrame_breach ho hc (by simp [classify, hk, hgoodWait, hgoodNak, hform])
  | refused r hk hident hb =>
    obtain ⟨b, rfl, hne, hr⟩ := hb
    subst hk
    have hother : nakOther 0x85 [b] = true := by simp [nakOther, reason_range hne hr]
    have hframe : r ≠ .frame := fun h => hne ((NakReason.ofCode_frame b).mp (h ▸ hr))
    rw [hother]
    exact takeFrame_nakIdentify ho hc (classify_nak hr) hframe hident
  | deviceClass hk hident hform hclass =>
    rw [nakOther_of_ne (by rw [hk]; exact hgoodNak), hk]
    exact takeFrame_classChanged ho hc (classify_good hform) hident hclass

/-- The cases in which R9, R10, R37 and R39 see a breach are those of `Breaks`. -/
theorem breaks_of_cases {l : Lane} {q : Request} {kind : Byte} {payload : List Byte}
    (h : (kind ≠ 0x84 ∧ kind ≠ 0x85 ∧ kind ≠ q.kind.goodCode) ∨
      (kind = 0x84 ∧ ¬ (payload.length = 2 ∧ beNat payload ≠ 0)) ∨
      (kind = 0x85 ∧ ¬ ∃ b : Byte, payload = [b] ∧ 1 ≤ b.toNat ∧ b.toNat ≤ 10) ∨
      (kind = 0x85 ∧ q.kind = .identify ∧ payload ≠ [1]) ∨
      (kind = q.kind.goodCode ∧ goodForm q l.rate payload = false) ∨
      (kind = 0x83 ∧ q.kind = .identify ∧ l.step = .attachIdentifyAgain ∧
        ∃ d : Identity, l.identity = some d ∧ d.deviceClass.toNat ≠ beField payload 0 2)) : Breaks l q kind payload := by
  rcases h with ⟨hw, hn, hg⟩ | ⟨hk, hf⟩ | ⟨hk, hf⟩ | ⟨hk, hident, hp⟩ | ⟨hk, hf⟩ | ⟨hk, hident, hst, d, hd, hne⟩
  · exact .kind hw hn hg
  · exact .wait hk hf
  · exact .nak hk hf
  · by_cases hf : ∃ b : Byte, payload = [b] ∧ 1 ≤ b.toNat ∧ b.toNat ≤ 10
    · obtain ⟨b, rfl, hb⟩ := hf
      obtain ⟨r, hr⟩ := Option.isSome_iff_exists.mp ((NakReason.ofCode_isSome b).mpr hb)
      exact .refused r hk hident ⟨b, rfl, by simpa using hp, hr⟩
    · exact .nak hk hf
  · exact .form hk hf
  · have hcode : kind = q.kind.goodCode := by rw [hk, hident]; rfl
    cases hf : goodForm q l.rate payload with
    | false => exact .form hcode hf
    | true => exact .deviceClass hcode hident hf (classChanged_of_ne hst hd hne)

/-- Settles O43: the forms kind by kind, and the lane fault of a frame that breaks the protocol. -/
theorem breachFaultsProtocol : Obligations.BreachFaultsProtocol := by
  refine ⟨fun q rate payload => ?_, fun s i n j q chars payload kind h hf hbreach => ?_⟩
  · intro field
    refine ⟨by cases q.kind <;> rfl, ?_⟩
    rw [goodForm_iff]
    cases q.kind with
    | identify => exact and_congr_right fun hl => parseIdentity_accepted hl rate
    | _ => exact Iff.rfl
  · intro refused unnamed
    have hbreaks : Breaks ((s.frameTaken i).lane i) q kind payload := by
      rw [State.frameTaken_lane]
      exact breaks_of_cases hbreach
    have hexec := h.exec_frameReceived hf
    rw [takeFrame_of_breaks h.outstanding_taken h.currentJob_taken hbreaks] at hexec
    have hfault := h.faults (code := .protocol) rfl (nakOther kind payload)
    rw [State.frameTaken_lane] at hfault
    obtain ⟨ho, -⟩ := h
    refine ⟨_, _, hexec, hfault.state, hfault.faultCode, hfault.outstanding, hfault.identity, hfault.power, hfault.queue,
      hfault.outputs, hfault.result, rfl, rfl, ?_, ?_, hfault.ctl, hfault.others⟩
    · simp only [Lane.result, Lane.faultVerdict, ho, Option.bind_some, faultKind_eq]
      rfl
    · simp [Lane.result, Lane.faultVerdict, ho]

end Sys2Proof.Machine
end

section
/-! SUPPORT. What the operations of a Lane Engine leave of the slots and of the lane queues, and which of them take no new
place in a lane queue (R55 to R58, R130). -/

namespace Sys2Proof.Machine

/-! ### Operations that touch no slot and no queue -/

/-- The cursor is none of the queue's. -/
theorem Lane.advanceCursor_queue (l : Lane) (g : Segment) (len : Nat) :
    (l.advanceCursor g len).queue = l.queue := by
  unfold Lane.advanceCursor
  split
  · rfl
  split
  · rfl
  · rfl

/-- From `s` to `t` every slot and every lane queue is unchanged. -/
structure KeepsQueues (s t : State) : Prop where
  slots : t.slots = s.slots
  queue : ∀ k : LaneId, (t.lane k).queue = (s.lane k).queue

namespace KeepsQueues

theorem refl (s : State) : KeepsQueues s s := ⟨rfl, fun _ => rfl⟩

theorem trans {s t u : State} (h : KeepsQueues s t) (k : KeepsQueues t u) : KeepsQueues s u :=
  ⟨k.slots.trans h.slots, fun i => (k.queue i).trans (h.queue i)⟩

theorem of_lanes {s t : State} (hs : t.slots = s.slots) (hl : t.lanes = s.lanes) : KeepsQueues s t :=
  ⟨hs, fun k => by rw [State.lane_congr hl k]⟩

theorem modLane (s : State) (i : LaneId) {f : Lane → Lane} (hf : ∀ l, (f l).queue = l.queue) :
    KeepsQueues s (s.modLane i f) := by
  refine ⟨rfl, fun k => ?_⟩
  rw [State.lane_modLane]
  split
  · exact hf _
  · rfl

theorem slot {s t : State} (h : KeepsQueues s t) (n : SlotId) : t.slot n = s.slot n := State.slot_congr h.slots n

theorem switchOff (s : State) (i : LaneId) : KeepsQueues s (switchOff s i) := by
  refine ⟨by simp, fun k => ?_⟩
  rw [switchOff_lane]
  split
  · next h => rw [h.1]; rfl
  · rfl

theorem releasePin (s : State) (i : LaneId) : KeepsQueues s (releasePin s i) := by
  refine ⟨by simp, fun k => ?_⟩
  rw [releasePin_lane]
  split
  · next h => rw [h]
  · rfl

theorem send (s : State) (i : LaneId) (k : ReqKind) (p : List Byte) : KeepsQueues s (send s i k p) := by
  unfold Machine.send
  split
  · exact modLane s i fun _ => rfl
  · exact refl s

theorem retransmitAtOnce (s : State) (i : LaneId) : KeepsQueues s (retransmitAtOnce s i) := by
  unfold Machine.retransmitAtOnce
  split
  · exact refl s
  split
  · exact modLane s i fun _ => rfl
  · exact refl s

theorem credentialStep (s : State) (i : LaneId) (sel : Selector) : KeepsQueues s (credentialStep s i sel).1 := by
  have hpin : ∀ c f, KeepsQueues s ((s.modCred c f).modLane i (fun l => { l with pinned := some c })) := fun c f =>
    .trans (t := s.modCred c f) (.of_lanes rfl rfl) (modLane _ i fun _ => rfl)
  unfold Machine.credentialStep
  split
  · exact refl s
  split
  · exact refl s
  split
  · exact refl s
  split
  · exact refl s
  split
  · exact (hpin _ _).trans (send _ i _ _)
  · exact refl s

theorem unlockDecision (s : State) (i : LaneId) (p : AttachParams) : KeepsQueues s (unlockDecision s i p).1 := by
  have hstep : KeepsQueues s (s.modLane i (fun l => { l with step := .attachCredential })) := modLane s i fun _ => rfl
  unfold Machine.unlockDecision
  split
  · exact refl s
  split
  · exact refl s
  split
  · exact refl s
  · exact hstep.trans (credentialStep _ i _)
  · exact hstep.trans (credentialStep _ i _)

theorem rateDecision (s : State) (i : LaneId) (p : AttachParams) : KeepsQueues s (rateDecision s i p).1 := by
  unfold Machine.rateDecision
  split
  · exact refl s
  split
  · exact unlockDecision s i p
  split
  · exact refl s
  · refine .trans ?_ (send _ i _ _)
    exact modLane s i fun _ => rfl

theorem sendChunk (s : State) (i : LaneId) (n : SlotId) (g : Segment) : KeepsQueues s (sendChunk s i n g) := by
  unfold Machine.sendChunk
  split
  · exact refl s
  split
  · exact refl s
  split
  · exact refl s
  · exact refl s
  · exact send s i _ _

theorem programErase (s : State) (i : LaneId) (n : SlotId) (k : Nat) (g : Segment) :
    KeepsQueues s (programErase s i n k g) := by
  unfold Machine.programErase
  dsimp only
  split
  · refine .trans ?_ (sendChunk _ i n g)
    exact modLane s i fun _ => rfl
  · exact send s i _ _

/-- What the step in hand calls for touches no slot and no queue. -/
theorem proceed (s : State) (i : LaneId) : KeepsQueues s (proceed s i).1 := by
  unfold Machine.proceed
  split
  · exact refl s
  dsimp only
  split
  case h_1 | h_2 | h_3 | h_4 => exact refl s
  case h_5 | h_6 | h_10 => exact send s i _ _
  case h_7 | h_9 | h_16 | h_17 =>
    split
    · exact send s i _ _
    · exact refl s
  case h_8 =>
    split
    · exact credentialStep s i _
    · exact refl s
  case h_11 | h_14 | h_15 =>
    split
    · exact refl s
    · exact send s i _ _
  case h_12 =>
    split
    · exact refl s
    · exact programErase s i _ _ _
  case h_13 =>
    split
    · exact refl s
    · exact sendChunk s i _ _

theorem enterStep (s : State) (i : LaneId) (st : Step) : KeepsQueues s (enterStep s i st).1 :=
  .trans (modLane s i (f := fun l => { l with step := st }) fun _ => rfl) (proceed _ i)

theorem attachTakeUp (s : State) (i : LaneId) (p : AttachParams) : KeepsQueues s (attachTakeUp s i p) := by
  refine (releasePin s i).trans (modLane _ i fun l => ?_)
  dsimp only
  split
  · rfl
  · rfl

theorem detachOff (s : State) (i : LaneId) : KeepsQueues s (detachOff s i) :=
  (releasePin s i).trans (.trans (modLane _ i (f := Lane.enterOff) fun _ => rfl) (switchOff _ i))

theorem fillWindow (s : State) (i : LaneId) (n : SlotId) (j : Job) : KeepsQueues s (fillWindow s i n j) :=
  .of_lanes rfl rfl

theorem firstStep (s : State) (i : LaneId) (n : SlotId) (j : Job) : KeepsQueues s (firstStep s i n j).1 := by
  unfold Machine.firstStep
  split
  case h_2 =>
    split
    · exact refl s
    · exact (fillWindow s i n j).trans (enterStep _ i _)
  case h_1 | h_3 | h_4 | h_5 => exact enterStep s i _
  all_goals exact refl s

theorem sessionJobTakeUp (s : State) (i : LaneId) (n : SlotId) (j : Job) :
    KeepsQueues s (sessionJobTakeUp s i n j).1 := by
  unfold Machine.sessionJobTakeUp
  split
  · exact refl s
  split
  · exact refl s
  · exact firstStep s i n j

/-- The take-up of a job touches no slot and no queue (R30, R32). -/
theorem takeUp (s : State) (i : LaneId) (n : SlotId) : KeepsQueues s (takeUp s i n).1 := by
  unfold Machine.takeUp
  split
  · exact refl s
  have hstart : KeepsQueues s (s.modLane i Lane.startJob) := modLane s i fun _ => rfl
  dsimp only
  split
  case h_1 => exact hstart.trans (attachTakeUp _ i _)
  case h_2 =>
    split
    · split
      · exact hstart.trans (enterStep _ i _)
      · exact hstart
    · exact hstart.trans (detachOff _ i)
  case h_3 | h_4 | h_5 | h_6 | h_7 => exact hstart.trans (sessionJobTakeUp _ i n _)
  all_goals exact hstart

theorem consumeBlock (s : State) (i : LaneId) (n : SlotId) (g b : Nat) : KeepsQueues s (consumeBlock s i n g b) := by
  unfold Machine.consumeBlock
  split
  · exact refl s
  · exact .of_lanes rfl rfl

theorem writeAcked (s : State) (i : LaneId) (n : SlotId) (g : Segment) (c : List Byte) :
    KeepsQueues s (writeAcked s i n g c) := by
  have hfed : KeepsQueues s (s.modLane i (fun k =>
      { k.advanceCursor g c.length with crc := crc32Feed k.crc c, bytes := k.bytes + c.length })) :=
    modLane s i fun l => l.advanceCursor_queue g c.length
  unfold Machine.writeAcked
  dsimp only
  split
  · exact hfed
  · exact hfed.trans (consumeBlock _ i n _ _)

theorem answerEffect (s : State) (i : LaneId) (n : SlotId) (j : Job) (q : Request) (p : List Byte) :
    KeepsQueues s (answerEffect s i n j q p) := by
  unfold Machine.answerEffect
  dsimp only
  split
  case h_3 | h_11 =>
    split
    · exact modLane s i fun _ => rfl
    · exact refl s
  case h_9 =>
    split
    · exact refl s
    · exact writeAcked s i n _ _
  case h_1 | h_2 | h_4 | h_5 | h_6 | h_7 | h_8 | h_10 => exact modLane s i fun _ => rfl
  all_goals exact refl s

theorem nextSegment (s : State) (i : LaneId) (j : Job) (k : Nat) : KeepsQueues s (nextSegment s i j k).1 := by
  have hcrc : KeepsQueues s (s.modLane i (fun l => { l with crc := crc32Init })) := modLane s i fun _ => rfl
  unfold Machine.nextSegment
  dsimp only
  split
  · exact hcrc.trans (enterStep _ i _)
  · exact hcrc

theorem segmentWritten (s : State) (i : LaneId) (j : Job) (k : Nat) (g : Segment) :
    KeepsQueues s (segmentWritten s i j k g).1 := by
  unfold Machine.segmentWritten
  split
  · exact refl s
  split
  · exact enterStep s i _
  · exact nextSegment s i j k

theorem afterAnswer (s : State) (i : LaneId) (n : SlotId) (j : Job) (b : Lane) (q : Request) (p : List Byte) :
    KeepsQueues s (afterAnswer s i n j b q p).1 := by
  unfold Machine.afterAnswer
  dsimp only
  split
  case h_1 =>
    split
    · exact rateDecision s i _
    · exact refl s
  case h_2 =>
    split
    · exact unlockDecision s i _
    · exact refl s
  case h_7 =>
    split
    · exact refl s
    split
    · exact enterStep s i _
    split
    · exact enterStep s i _
    · exact refl s
  case h_8 => exact enterStep s i _
  case h_9 =>
    split
    · exact refl s
    have hfill : KeepsQueues s (if (decide ((s.lane i).segment = b.segment) && decide ((s.lane i).block = b.block)) = true
        then s else Machine.fillWindow s i n j) := by
      split
      · exact refl s
      · exact fillWindow s i n j
    split
    · exact hfill.trans (enterStep _ i _)
    · exact hfill.trans (segmentWritten _ i j _ _)
  case h_10 =>
    split
    · exact refl s
    split
    · exact nextSegment s i j _
    · exact refl s
  case h_11 =>
    split
    · exact refl s
    split
    · split
      · exact enterStep s i _
      · exact refl s
    · exact refl s
  case h_12 off _ => exact modLane s i (f := fun l => { l with
      readback := some { addr := readbackAddr j.spec i off, bytes := p }, step := .readbackWrite off }) fun _ => rfl
  all_goals exact refl s

theorem goodAnswer (s : State) (i : LaneId) (n : SlotId) (j : Job) (q : Request) (p : List Byte) :
    KeepsQueues s (goodAnswer s i n j q p).1 := by
  have heffect : KeepsQueues s (Machine.answerEffect ((Machine.releasePin s i).modLane i Lane.endRequest) i n j q p) :=
    (releasePin s i).trans (.trans (modLane _ i (f := Lane.endRequest) fun _ => rfl) (answerEffect _ i n j q p))
  unfold Machine.goodAnswer
  dsimp only
  split
  · exact heffect
  split
  · exact heffect
  · exact heffect.trans (afterAnswer _ i n j _ q p)

theorem refuse (s : State) (i : LaneId) (j : Job) (q : Request) (r : NakReason) : KeepsQueues s (refuse s i j q r).1 := by
  refine ⟨refuse_slots s i j q r, fun k => ?_⟩
  by_cases hk : k = i
  · rw [hk, refuse_lane]; rfl
  · rw [(refuse_local s i j q r).2.2 k hk]

theorem readbackWritten (s : State) (i : LaneId) (j : Job) (off : Nat) : KeepsQueues s (readbackWritten s i j off).1 := by
  have hwritten : KeepsQueues s (s.modLane i (fun l => { l with readback := none })) := modLane s i fun _ => rfl
  unfold Machine.readbackWritten
  dsimp only
  split
  · split
    · exact hwritten.trans (enterStep _ i _)
    · exact hwritten
  · exact hwritten

end KeepsQueues

end Sys2Proof.Machine
end

section
/-! SUPPORT. The operations that take no new place in any lane queue: jobs leave queues and INTAKE, and none joins or
reserves (R56 to R58, R130). -/

namespace Sys2Proof.Machine

/-- From `s` to `t` no lane queue has grown, and every job in INTAKE was there with the same lane set: no place has been
taken and none reserved (R57, R130; log 28). -/
structure NoNewPlaces (s t : State) : Prop where
  queue : ∀ i : LaneId, (t.lane i).queue.length ≤ (s.lane i).queue.length
  reserved : ∀ (n : SlotId) (j : Job), t.slot n = some j → j.state = .intake →
    ∃ k : Job, s.slot n = some k ∧ k.state = .intake ∧ k.spec.lanes = j.spec.lanes

/-- Slot `n` holds a reservation in lane `i`'s queue (R130). -/
def State.reserves (s : State) (i : LaneId) (n : SlotId) : Bool :=
  match s.slot n with
  | none => false
  | some j => j.state == .intake && inSet j.spec.lanes i

theorem reservations_eq (s : State) (i : LaneId) : reservations s i = allSlots.countP (s.reserves i) := rfl

theorem State.reserves_iff (s : State) (i : LaneId) (n : SlotId) : s.reserves i n = true ↔
    ∃ j : Job, s.slot n = some j ∧ j.state = .intake ∧ inSet j.spec.lanes i = true := by
  unfold State.reserves
  cases s.slot n with
  | none => simp
  | some j => simp

namespace NoNewPlaces

theorem refl (s : State) : NoNewPlaces s s := ⟨fun _ => le_rfl, fun _ j hj hi => ⟨j, hj, hi, rfl⟩⟩

theorem trans {s t u : State} (h : NoNewPlaces s t) (k : NoNewPlaces t u) : NoNewPlaces s u := by
  refine ⟨fun i => (k.queue i).trans (h.queue i), fun n j hj hi => ?_⟩
  obtain ⟨b, hb, hbi, hbl⟩ := k.reserved n j hj hi
  obtain ⟨a, ha, hai, hal⟩ := h.reserved n b hb hbi
  exact ⟨a, ha, hai, hal.trans hbl⟩

theorem of_keepsQueues {s t : State} (h : KeepsQueues s t) : NoNewPlaces s t :=
  ⟨fun i => by rw [h.queue i], fun n j hj hi => ⟨j, by rw [← h.slot n]; exact hj, hi, rfl⟩⟩

theorem of_lanes {s t : State} (hs : t.slots = s.slots) (hl : t.lanes = s.lanes) : NoNewPlaces s t :=
  of_keepsQueues (.of_lanes hs hl)

/-- A state that fits its queues does so when no place has been taken since (R57, R130). -/
theorem queuesFit {s t : State} (h : NoNewPlaces s t) (hs : s.queuesFit) : t.queuesFit := by
  intro i
  have hres : reservations t i ≤ reservations s i := by
    rw [reservations_eq, reservations_eq]
    refine List.countP_mono_left fun n _ hn => ?_
    obtain ⟨j, hj, hi, hin⟩ := (t.reserves_iff i n).mp hn
    obtain ⟨k, hk, hki, hkl⟩ := h.reserved n j hj hi
    exact (s.reserves_iff i n).mpr ⟨k, hk, hki, by rw [hkl]; exact hin⟩
  exact (Nat.add_le_add (h.queue i) hres).trans (hs i)

theorem modLane (s : State) (i : LaneId) {f : Lane → Lane} (hf : ∀ l, (f l).queue.length ≤ l.queue.length) :
    NoNewPlaces s (s.modLane i f) := by
  refine ⟨fun k => ?_, fun n j hj hi => ⟨j, hj, hi, rfl⟩⟩
  rw [State.lane_modLane]
  split
  · exact hf _
  · exact le_rfl

/-- A slot comes to hold what reserves no more than before. -/
theorem setSlot {s : State} {n : SlotId} {o : Option Job} (ho : ∀ j, o = some j → j.state = .intake →
    ∃ k : Job, s.slot n = some k ∧ k.state = .intake ∧ k.spec.lanes = j.spec.lanes) : NoNewPlaces s (s.setSlot n o) := by
  refine ⟨fun _ => le_rfl, fun m j hj hi => ?_⟩
  rw [State.slot_setSlot] at hj
  split at hj
  · next hm => rw [← hm]; exact ho j hj hi
  · exact ⟨j, hj, hi, rfl⟩

theorem freed (s : State) (n : SlotId) : NoNewPlaces s (s.setSlot n none) :=
  setSlot fun _ h => absurd h (Option.some_ne_none _).symm

theorem unblockLanes (s : State) (m : BitVec 16) : NoNewPlaces s (s.unblockLanes m) :=
  .of_lanes (State.unblockLanes_frame s m).2.1 (State.unblockLanes_frame s m).2.2.1

/-- A job outside INTAKE reserves nothing (R130). -/
theorem setSlot_of_ne (s : State) (n : SlotId) {j : Job} (hj : j.state ≠ .intake) : NoNewPlaces s (s.setSlot n (some j)) :=
  setSlot fun k hk hi => absurd hi (by rw [← Option.some.inj hk]; exact hj)

/-- A job that keeps its state and its lane set reserves what it did. -/
theorem setSlot_of_same {s : State} {n : SlotId} {k j : Job} (hk : s.slot n = some k) (hs : j.state = k.state)
    (hl : j.spec.lanes = k.spec.lanes) : NoNewPlaces s (s.setSlot n (some j)) :=
  setSlot fun j' hj' hi => ⟨k, hk, by rw [← hs, Option.some.inj hj', hi], by rw [← hl, Option.some.inj hj']⟩

theorem modSlot (s : State) (n : SlotId) {f : Job → Job} (hs : ∀ j, (f j).state = .intake → j.state = .intake)
    (hl : ∀ j, (f j).spec = j.spec) : NoNewPlaces s (s.modSlot n f) := by
  unfold State.modSlot
  split
  · exact refl s
  next k hk =>
  refine setSlot fun j hj hi => ?_
  have hf : f k = j := Option.some.inj hj
  rw [← hf] at hi ⊢
  exact ⟨k, hk, hs k hi, by rw [hl]⟩

theorem foldl {α : Type} {f : State → α → State} (hf : ∀ s a, NoNewPlaces s (f s a)) (l : List α) (s : State) :
    NoNewPlaces s (l.foldl f s) := by
  induction l generalizing s with
  | nil => exact refl s
  | cons a l ih => exact (hf s a).trans (ih _)

/-! ### Retiring and freeing -/

theorem retireIfDone (s : State) (n : SlotId) : NoNewPlaces s (retireIfDone s n) := by
  unfold Machine.retireIfDone
  split
  · exact refl s
  split
  · refine (setSlot_of_ne s n ?_).trans (.of_lanes (offerIfClear_frame _ n).2.2.1 (offerIfClear_frame _ n).2.2.2.1)
    exact nofun
  · exact refl s

theorem retireBarrier (s : State) (n : SlotId) (st : Status) : NoNewPlaces s (retireBarrier s n st) := by
  unfold Machine.retireBarrier
  split
  · exact refl s
  · refine (setSlot_of_ne s n ?_).trans (.of_lanes (offerJob_frame _ n).2.2.1 (offerJob_frame _ n).2.2.2.1)
    exact nofun

theorem leaveWaitSet (n : SlotId) (s : State) (m : SlotId) : NoNewPlaces s (leaveWaitSet n s m) := by
  unfold Machine.leaveWaitSet
  split
  · exact refl s
  next j hj =>
  dsimp only
  split
  · split
    · exact retireBarrier s m _
    · exact setSlot_of_same hj rfl rfl
  · exact refl s

theorem freeSlot (s : State) (n : SlotId) : NoNewPlaces s (freeSlot s n) := by
  unfold Machine.freeSlot
  exact ((freed s n).trans (foldl (leaveWaitSet n) allSlots _)).trans
    (.of_lanes (State.unblockSlot_slots _) (State.unblockSlot_lanes _))

/-! ### Entering the holding queue -/

theorem enterHolding (s : State) (c : Candidate) : NoNewPlaces s (enterHolding s c) := by
  cases c with
  | job n => exact .of_lanes rfl rfl
  | engine =>
    unfold Machine.enterHolding
    dsimp only
    split
    · exact .of_lanes rfl rfl
    · exact refl s
    · exact refl s
    · exact refl s
  | intakeJob n =>
    unfold Machine.enterHolding
    dsimp only
    split
    · exact refl s
    split
    · exact refl s
    · have hpush : ∀ x r f, NoNewPlaces s ((s.pushHolding x).modRing r f) := fun _ _ _ => .of_lanes rfl rfl
      exact ((hpush _ _ _).trans (freeSlot _ n)).trans (unblockLanes _ _)
  | laneEvent i =>
    unfold Machine.enterHolding
    dsimp only
    split
    · exact refl s
    · exact .trans (t := s.pushHolding _) (.of_lanes rfl rfl) (modLane _ i fun _ => le_rfl)

theorem joinWait (s : State) (c : Candidate) : NoNewPlaces s (s.joinWait c) := .of_lanes (by simp) (by simp)

theorem offer (s : State) (c : Candidate) : NoNewPlaces s (offer s c) := by
  unfold Machine.offer
  split
  · exact enterHolding s c
  · exact joinWait s c

theorem offerIfClear (s : State) (n : SlotId) : NoNewPlaces s (offerIfClear s n) := .of_lanes (by simp) (by simp)

theorem promote (s : State) : NoNewPlaces s (promote s) := by
  unfold Machine.promote
  split
  · exact refl s
  next rest _ =>
  split
  · exact .trans (t := { s with writer := { s.writer with waitList := rest } }) (.of_lanes rfl rfl) (enterHolding _ _)
  · exact refl s

theorem postIntake (s : State) (c : IntakeCompletion) : NoNewPlaces s (postIntake s c) :=
  .trans (t := s.setEngine (.waiting c)) (.of_lanes rfl rfl) (offer _ _)

/-! ### The end of a job and the next one -/

/-- An outcome recorded leaves the job's state and record (R56). -/
theorem record (s : State) (i : LaneId) (n : SlotId) (r : LaneResult) :
    NoNewPlaces s (s.modSlot n (fun j => j.record i r)) := by
  have hrecord : ∀ j : Job, (j.record i r).state = j.state ∧ (j.record i r).spec = j.spec := by
    intro j
    unfold Job.record
    split
    · exact ⟨rfl, rfl⟩
    · exact ⟨rfl, rfl⟩
  exact modSlot s n (fun j h => by rw [← (hrecord j).1]; exact h) (fun j => (hrecord j).2)

/-- A job leaves the lane's queue (R58). -/
theorem leaveQueue (s : State) (i : LaneId) (n : SlotId) {f : Lane → Lane}
    (hf : ∀ l, (f l).queue = l.queue.filter (· != n)) : NoNewPlaces s ((s.modLane i f).unblockLane i) :=
  (modLane s i fun l => by rw [hf]; exact List.length_filter_le _ _).trans
    (.of_lanes (State.unblockLane_slots _ i) (State.unblockLane_lanes _ i))

theorem closeJob (s : State) (i : LaneId) (n : SlotId) (r : LaneResult) : NoNewPlaces s (closeJob s i n r) := by
  unfold Machine.closeJob
  have hpool : ∀ t p, NoNewPlaces t (State.setPool t p) := fun _ _ => .of_lanes rfl rfl
  exact (((record s i n r).trans (hpool _ _)).trans (leaveQueue _ i n fun _ => rfl)).trans (retireIfDone _ n)

theorem conclude (s : State) (i : LaneId) (n : SlotId) (v : Verdict) : NoNewPlaces s (conclude s i n v) := by
  unfold Machine.conclude
  split
  · exact closeJob s i n _
  · exact closeJob s i n _

theorem removeJob (s : State) (i : LaneId) (n : SlotId) (j : Job) (v : Verdict) : NoNewPlaces s (removeJob s i n j v) := by
  unfold Machine.removeJob
  exact ((record s i n _).trans (leaveQueue _ i n fun _ => rfl)).trans (retireIfDone _ n)

theorem becomeCurrent (s : State) (i : LaneId) (n : SlotId) : NoNewPlaces s (becomeCurrent s i n) := by
  refine .trans (modSlot s n ?_ ?_) (modLane _ i fun _ => le_rfl)
  · intro j h
    split at h
    · cases h
    · exact h
  · intro j
    split
    · rfl
    · rfl

/-- However many jobs end at once, the lane's queue does not grow (R58). -/
theorem settle (fuel : Nat) (s : State) (i : LaneId) : NoNewPlaces s (settle fuel s i) := by
  induction fuel generalizing s with
  | zero => exact refl s
  | succ fuel ih =>
    unfold Machine.settle
    split
    · exact refl s
    next n _ _ =>
    have hcur := becomeCurrent s i n
    have htake := hcur.trans (of_keepsQueues (KeepsQueues.takeUp (Machine.becomeCurrent s i n) i n))
    dsimp only
    split
    · exact hcur
    split
    · next heq => rw [heq] at htake; exact htake
    · next heq => rw [heq] at htake; exact htake.trans ((conclude _ i n _).trans (ih _))

theorem nextJob (s : State) (i : LaneId) : NoNewPlaces s (nextJob s i) := settle _ s i

theorem finishLane (s : State) (i : LaneId) (v : Verdict) : NoNewPlaces s (finishLane s i v) := by
  unfold Machine.finishLane
  split
  · exact refl s
  · exact (conclude s i _ v).trans (nextJob _ i)

/-- An operation of a lane's engine, brought to its end. -/
theorem resolveStep {s : State} {p : Stepped} (h : KeepsQueues s p.1) (i : LaneId) : NoNewPlaces s (resolveStep i p) := by
  unfold Machine.resolveStep
  split
  · exact of_keepsQueues h
  · exact (of_keepsQueues h).trans (finishLane _ i _)

/-! ### Lane faults -/

theorem raiseEvent (s : State) (i : LaneId) (code : FaultCode) : NoNewPlaces s (raiseEvent s i code) :=
  .trans (modLane s i (f := fun l => { l with pendingEvent := some { code := code, sample := l.lastSample } })
    fun _ => le_rfl) (offer _ _)

theorem faultLane (s : State) (i : LaneId) (code : FaultCode) (refused : Bool) :
    NoNewPlaces s (faultLane s i code refused) := by
  have hfaulted : KeepsQueues s ((Machine.releasePin s i).modLane i (fun k => k.enterFaulted code)) :=
    (KeepsQueues.releasePin s i).trans (.modLane _ i fun _ => rfl)
  have hoff : NoNewPlaces s (if code.isSupply then Machine.switchOff ((Machine.releasePin s i).modLane i
      (fun k => k.enterFaulted code)) i else (Machine.releasePin s i).modLane i (fun k => k.enterFaulted code)) := by
    split
    · exact of_keepsQueues (hfaulted.trans (.switchOff _ i))
    · exact of_keepsQueues hfaulted
  unfold Machine.faultLane
  split
  · split
    · exact of_keepsQueues (.switchOff s i)
    · exact refl s
  · dsimp only
    split
    · exact hoff.trans ((closeJob _ i _ _).trans (nextJob _ i))
    · exact hoff.trans (raiseEvent _ i code)

theorem laneFault (s : State) (i : LaneId) (code : FaultCode) : NoNewPlaces s (laneFault s i code) :=
  faultLane s i code false

/-! ### Frames, checks and marks -/

theorem takeWait (s : State) (i : LaneId) (q : Request) (estimate : Nat) : NoNewPlaces s (takeWait s i q estimate) := by
  unfold Machine.takeWait
  split
  · exact laneFault s i _
  · exact modLane s i fun _ => le_rfl

theorem takeFrame (s : State) (i : LaneId) (seq kind : Byte) (payload : List Byte) :
    NoNewPlaces s (takeFrame s i seq kind payload) := by
  unfold Machine.takeFrame
  split
  · split
    · exact refl s
    split
    · exact laneFault s i _
    · exact takeWait s i _ _
    · split
      · exact of_keepsQueues (.retransmitAtOnce s i)
      split
      · exact faultLane s i _ _
      · exact resolveStep (.refuse s i _ _ _) i
    · split
      · exact laneFault s i _
      · exact resolveStep (.goodAnswer s i _ _ _ _) i
  · exact refl s

theorem takeCheck (s : State) (i : LaneId) (mv : Nat) : NoNewPlaces s (takeCheck s i mv) := by
  have hcount : NoNewPlaces s (s.modLane i (fun l => { l with checkCount := l.checkCount + 1 })) :=
    modLane s i fun _ => le_rfl
  unfold Machine.takeCheck
  split
  · dsimp only
    split
    · split
      · exact hcount
      split
      · exact hcount.trans (modLane _ i fun _ => le_rfl)
      · exact hcount
    split
    · exact hcount.trans (laneFault _ i _)
    · exact hcount.trans (modLane _ i fun _ => le_rfl)
  · exact refl s

theorem takeSupervise (s : State) (i : LaneId) (mv : Nat) : NoNewPlaces s (takeSupervise s i mv) := by
  unfold Machine.takeSupervise
  split
  · exact modLane s i fun _ => le_rfl
  split
  · exact modLane s i fun _ => le_rfl
  · exact .trans (modLane s i (f := fun l => { l with outOfWindow := 2 }) fun _ => le_rfl) (laneFault _ i _)

theorem imageFailed (s : State) (n : SlotId) (g b : Nat) : NoNewPlaces s (imageFailed s n g b) := by
  have hlane : ∀ t i, NoNewPlaces t (imageFailedLane n t i) := by
    intro t i
    unfold imageFailedLane
    split
    · exact refl t
    split
    · exact finishLane t i _
    · exact refl t
  unfold Machine.imageFailed
  split
  · exact refl s
  next j hj =>
  split
  · exact refl s
  · exact .trans (setSlot_of_same (j := { j with imageFailed := some (g, b) }) hj rfl rfl) (foldl hlane _ _)

/-! ### Aborts -/

theorem abortBeforeIdentity (s : State) (i : LaneId) : NoNewPlaces s (abortBeforeIdentity s i) := by
  refine .trans (of_keepsQueues ?_) (finishLane _ i _)
  exact (KeepsQueues.releasePin s i).trans
    (.trans (.modLane _ i (f := fun l => { l.enterOff with tx := .idle }) fun _ => rfl) (.switchOff _ i))

theorem abortLane (n : SlotId) (s : State) (i : LaneId) : NoNewPlaces s (abortLane n s i) := by
  unfold Machine.abortLane
  split
  · exact refl s
  split
  · exact refl s
  split
  · exact removeJob s i n _ _
  split
  · exact abortBeforeIdentity s i
  split
  · exact refl s
  · exact finishLane s i _

theorem abortJob {s : State} {n : SlotId} {j : Job} (hj : s.slot n = some j) : NoNewPlaces s (abortJob s n j) := by
  have hmark : NoNewPlaces s (s.setSlot n (some { j with abortMark := true })) := setSlot_of_same hj rfl rfl
  unfold Machine.abortJob
  split
  · exact refl s
  · exact hmark
  · exact retireBarrier s n _
  · exact foldl (abortLane n) _ s
  · exact hmark.trans (foldl (abortLane n) _ _)

end NoNewPlaces

/-- The entry in the intake engine's hand is posted without a slot changing (R133). -/
theorem postIntake_slots (s : State) (c : IntakeCompletion) : (postIntake s c).slots = s.slots := by
  unfold postIntake offer
  split
  · rfl
  · exact (State.joinWait_frame _ _).2.2.1

theorem NoNewPlaces.abortLookup (s : State) (own : IntakeCompletion) (r : RingId) (tag : BitVec 16) :
    NoNewPlaces s (abortLookup s own r tag) := by
  unfold Machine.abortLookup
  split
  · exact .postIntake s _
  split
  · exact .postIntake s _
  next j hj =>
  split
  · exact (NoNewPlaces.postIntake s _).trans (.abortJob (by rw [State.slot_congr (postIntake_slots s _)]; exact hj))
  · exact .postIntake s _

end Sys2Proof.Machine
end

section
/-! CERTIFICATES. Every step keeps each lane queue and its reservations at 4 places (R57, R130): a claim reserves where there
is room, a placement turns a reservation into a place, and nothing else takes one. -/

namespace Sys2Proof.Machine

/-! ### One slot's share of the reservations -/

/-- Two counts over a list without repeats differ by the one element on which the predicates do. -/
theorem countP_add_toNat {α : Type} {p q : α → Bool} {a : α} (l : List α) (hn : l.Nodup) (ha : a ∈ l)
    (h : ∀ x, x ≠ a → p x = q x) : l.countP p + (q a).toNat = l.countP q + (p a).toNat := by
  obtain ⟨l₁, l₂, rfl⟩ := List.append_of_mem ha
  have hout : ∀ x, x ∈ l₁ ∨ x ∈ l₂ → x ≠ a := by
    rintro x hx rfl
    rw [List.nodup_middle, List.nodup_cons] at hn
    exact hn.1 (List.mem_append.mpr hx)
  have h₁ : l₁.countP p = l₁.countP q := List.countP_congr fun x hx => by rw [h x (hout x (.inl hx))]
  have h₂ : l₂.countP p = l₂.countP q := List.countP_congr fun x hx => by rw [h x (hout x (.inr hx))]
  simp only [List.countP_append, List.countP_cons, h₁, h₂]
  cases p a <;> cases q a <;> simp <;> omega

/-- The reservations once slot `n` holds something else: its own share changes, and no other's (R130). -/
theorem reservations_setSlot (s : State) (n : SlotId) (o : Option Job) (i : LaneId) :
    reservations (s.setSlot n o) i + (s.reserves i n).toNat =
      reservations s i + ((s.setSlot n o).reserves i n).toNat := by
  rw [reservations_eq, reservations_eq]
  refine countP_add_toNat allSlots (List.nodup_finRange 32) (mem_allSlots n) fun m hm => ?_
  unfold State.reserves
  rw [State.slot_setSlot_ne s hm]

/-- The reservations are read from the slots alone. -/
theorem reservations_congr {s t : State} (h : t.slots = s.slots) (i : LaneId) : reservations t i = reservations s i := by
  have hslot : ∀ n, t.slot n = s.slot n := State.slot_congr h
  unfold reservations
  simp only [hslot]

theorem reserves_setSlot_some (s : State) (n : SlotId) (j : Job) (i : LaneId) :
    (s.setSlot n (some j)).reserves i n = (j.state == .intake && inSet j.spec.lanes i) := by
  unfold State.reserves
  rw [State.slot_setSlot_self]

theorem reserves_of_slot {s : State} {n : SlotId} {j : Job} (h : s.slot n = some j) (i : LaneId) :
    s.reserves i n = (j.state == .intake && inSet j.spec.lanes i) := by
  unfold State.reserves
  rw [h]

/-! ### Placement -/

theorem mem_lanesOf (m : BitVec 16) (i : LaneId) : i ∈ lanesOf m ↔ inSet m i = true := by simp [lanesOf, allLanes]

/-- A job that joins the queues of some lanes takes one place in each of them (R57). -/
theorem joinQueues_length (n : SlotId) {l : List LaneId} (hn : l.Nodup) (s : State) (k : LaneId) :
    ((l.foldl (joinQueue n) s).lane k).queue.length = (s.lane k).queue.length + (if k ∈ l then 1 else 0) := by
  induction l generalizing s with
  | nil => simp
  | cons i l ih =>
    obtain ⟨hi, hn⟩ := List.nodup_cons.mp hn
    have hjoin : (joinQueue n s i).lane k =
        if k = i then { s.lane k with queue := (s.lane k).queue ++ [n] } else s.lane k := by
      unfold joinQueue
      rw [State.lane_modLane]
    rw [List.foldl_cons, ih hn, hjoin]
    by_cases hk : k = i
    · subst hk
      simp [hi]
    · simp [hk]

theorem joinQueues_slots (n : SlotId) (l : List LaneId) (s : State) : (l.foldl (joinQueue n) s).slots = s.slots :=
  foldl_keeps State.slots (joinQueue n) (fun _ _ => rfl) l s

section Placement

variable {s : State} (h : s.queuesFit) {n : SlotId} {j : Job}
include h

/-- A lane job placed gives up its reservation on each lane for a place (R57, R130, R132). -/
theorem placeLaneJob_queuesFit {k : Job} (hk : s.slot n = some k) (hs : k.state = .intake)
    (hl : k.spec.lanes = j.spec.lanes) : (placeLaneJob s n j).queuesFit := by
  unfold placeLaneJob
  dsimp only
  refine (NoNewPlaces.foldl NoNewPlaces.nextJob _ _).queuesFit fun i => ?_
  rw [joinQueues_length n (nodup_lanesOf _), reservations_congr (joinQueues_slots n _ _), State.setSlot_lane]
  have hres := reservations_setSlot s n (some { j with
    state := if (List.filter (fun i => (s.lane i).queue.isEmpty) (lanesOf j.spec.lanes)).isEmpty then .queued else .active
    listRead := false }) i
  have hnew : ∀ st : SlotState, (st == .intake) = false →
      (s.setSlot n (some { j with state := st, listRead := false })).reserves i n = false := by
    intro st hst
    rw [reserves_setSlot_some, hst, Bool.false_and]
  rw [reserves_of_slot hk, hs, hl, hnew _ (by split <;> rfl)] at hres
  have hfit := h i
  simp only [mem_lanesOf]
  cases hin : inSet j.spec.lanes i with
  | false => simp [hin] at hres ⊢; omega
  | true => simp [hin] at hres ⊢; omega

theorem placeBarrier_queuesFit : (placeBarrier s n j).queuesFit := by
  unfold placeBarrier
  dsimp only
  split
  · exact (NoNewPlaces.retireBarrier s n _).queuesFit h
  · refine NoNewPlaces.queuesFit (.trans (.setSlot_of_ne s n ?_) (.of_lanes (t := State.modRing _ _ _) rfl rfl)) h
    exact nofun

/-- The placement of a job in INTAKE keeps every queue within its room (R130, R132). -/
theorem place_queuesFit (hi : ∀ k, s.slot n = some k → k.state = .intake) : (place s n).queuesFit := by
  unfold place
  split
  · exact h
  next k hk =>
  have h1 : (s.modRing k.ring (fun r => { r with inIntake := false })).queuesFit := h
  dsimp only
  split
  case h_1 => exact placeBarrier_queuesFit h1
  case h_9 | h_10 | h_11 => exact h1
  all_goals exact placeLaneJob_queuesFit h1 hk (hi k hk) rfl

/-- A claim reserves a place on each lane of the set, where there is room (R130). -/
theorem examine_queuesFit (r : RingId) (spec : JobSpec) : (examine s r spec).queuesFit := by
  have hold : ∀ cause, (holdEntry s r spec cause).queuesFit := fun _ => h
  unfold examine
  split
  · exact hold _
  next n hn =>
  split
  · next hroom =>
    have hfree : s.slot n = none := by simpa using List.find?_some hn
    have hclaim : (s.setSlot n (some (newJob r spec))).queuesFit := by
      intro i
      have hres := reservations_setSlot s n (some (newJob r spec)) i
      have hold : s.reserves i n = false := by unfold State.reserves; rw [hfree]
      have hnew : (s.setSlot n (some (newJob r spec))).reserves i n = inSet spec.lanes i := by
        rw [reserves_setSlot_some]; rfl
      rw [hold, hnew] at hres
      have hfit := h i
      rw [State.setSlot_lane]
      cases hin : inSet spec.lanes i with
      | false => rw [hin] at hres; simp only [Bool.toNat_false] at hres; omega
      | true =>
        have hr : hasRoom s i = true := List.all_eq_true.mp hroom i ((mem_lanesOf _ _).mpr hin)
        rw [hin] at hres
        simp only [hasRoom, decide_eq_true_eq] at hr
        simp only [Bool.toNat_false, Bool.toNat_true] at hres
        omega
    unfold claim
    dsimp only
    split
    · exact hclaim
    · refine place_queuesFit (s := ((s.setSlot n _).modRing r _).setEngine .free) hclaim fun k hk => ?_
      rw [State.setEngine_slot, State.modRing_slot, State.slot_setSlot_self] at hk
      rw [← Option.some.inj hk]
      rfl
  · exact hold _

end Placement

/-! ### The commands -/

/-- Wherever a command leads on, every queue is within its room. -/
def Fitting (r : Result) : Prop := ∀ t : State, r = .next t → t.queuesFit

theorem Fitting.next {t : State} (h : t.queuesFit) : Fitting (.next t) := by
  intro u hu
  obtain rfl : t = u := by simpa using hu
  exact h

section Commands

variable {s : State} (h : s.queuesFit)
include h

/-- A command that takes no new place fits. -/
theorem NoNewPlaces.fitting {t : State} (ht : NoNewPlaces s t) : Fitting (.next t) := .next (ht.queuesFit h)

/-- A command that leaves slots and lanes fits. -/
theorem fitting_of_lanes {t : State} (hs : t.slots = s.slots) (hl : t.lanes = s.lanes) : Fitting (.next t) :=
  (NoNewPlaces.of_lanes hs hl).fitting h

theorem fitting_withMessage {b t : State} (ht : NoNewPlaces s t) : Fitting (.next (withMessage b t)) :=
  (ht.trans (.of_lanes (by simp) (by simp))).fitting h

theorem fitting_deviceFault {b t : State} (ht : NoNewPlaces s t) (c : Cause) :
    Fitting (.next (withMessage b (deviceFault t c))) :=
  fitting_withMessage h (ht.trans (.of_lanes (by simp) (by simp)))

theorem fitting_modLane (i : LaneId) {f : Lane → Lane} (hf : ∀ l, (f l).queue = l.queue) :
    Fitting (.next (s.modLane i f)) := (NoNewPlaces.modLane s i fun l => by rw [hf]).fitting h

/-! ### The Intake Unit -/

theorem execIntakeArbiterChoice_fitting : Fitting (execIntakeArbiterChoice s) := by
  unfold execIntakeArbiterChoice
  split
  · split
    · unfold chooseRing
      dsimp only
      split
      · refine .next (examine_queuesFit ((NoNewPlaces.of_lanes ?_ ?_).queuesFit h) _ _)
        · rfl
        · rfl
      · exact fitting_of_lanes h rfl rfl
    · exact .next h
  · exact .next h

theorem takeRecord_queuesFit (r : RingId) (bytes : List Byte) : (takeRecord s r bytes).queuesFit := by
  have hpost : ∀ c, (postIntake s c).queuesFit := fun c => (NoNewPlaces.postIntake s c).queuesFit h
  unfold takeRecord
  split
  · exact hpost _
  split
  · exact hpost _
  split
  case h_1 => exact (NoNewPlaces.abortLookup s _ _ _).queuesFit h
  case h_2 e _ =>
    have hclear : NoNewPlaces s (clearCredentials s e).1 := by
      unfold clearCredentials
      split
      · split
        · exact .of_lanes rfl rfl
        · exact .refl s
      split
      · exact .of_lanes rfl rfl
      · exact .refl s
    exact (hclear.trans (.postIntake _ _)).queuesFit h
  case h_3 => exact h
  all_goals exact examine_queuesFit h _ _

theorem execRecordReadEnd_fitting (e : Epoch) (r : HostRead) : Fitting (execRecordReadEnd e r s) := by
  unfold execRecordReadEnd
  split
  · split
    · exact .next h
    split
    · exact fitting_deviceFault h (.refl s) _
    split
    · exact .next (takeRecord_queuesFit h _ _)
    · exact .next h
  · exact .next h

theorem execLoadCredentialReadEnd_fitting (e : Epoch) (r : HostRead) : Fitting (execLoadCredentialReadEnd e r s) := by
  have hpost : ∀ c, Fitting (.next (postIntake s c)) := fun c => (NoNewPlaces.postIntake s c).fitting h
  unfold execLoadCredentialReadEnd
  split
  · split
    · split
      · exact .next h
      split
      · exact hpost _
      split
      · exact .next h
      split
      · have hload : ∀ c f, NoNewPlaces s (s.modCred c f) := fun _ _ => .of_lanes rfl rfl
        exact ((hload _ _).trans (.postIntake _ _)).fitting h
      · exact hpost _
    · exact .next h
  · exact .next h

theorem execListReadEnd_fitting (e : Epoch) (n : SlotId) (r : HostRead) : Fitting (execListReadEnd e n r s) := by
  unfold execListReadEnd
  split
  · next j hj =>
    have hretire : NoNewPlaces s (retireAborted s n j) := by
      unfold retireAborted
      have hring : ∀ u r f, NoNewPlaces u (State.modRing u r f) := fun _ _ _ => .of_lanes rfl rfl
      refine .trans (.trans (.trans (.setSlot_of_ne s n ?_) (hring _ _ _)) (.unblockLanes _ _)) (.offerIfClear _ n)
      exact nofun
    have hfail : ∀ st d, NoNewPlaces s (completeFromIntake s n j st d) := fun st d =>
      .trans (.setSlot_of_same (j := { j with listRead := false, intakeEnd := some (st, d) }) hj rfl rfl) (.offer _ _)
    split
    · exact .next h
    next hrun =>
    split
    · split
      · exact hretire.fitting h
      · exact (hfail _ _).fitting h
    split
    · exact .next h
    split
    · exact hretire.fitting h
    dsimp only
    split
    · exact (hfail _ _).fitting h
    · have hintake : j.state = .intake := by
        by_contra hne
        simp [hne] at hrun
      refine .next (place_queuesFit (NoNewPlaces.queuesFit ?_ h) fun k hk => ?_)
      · exact .setSlot_of_same hj rfl rfl
      · rw [State.slot_setSlot_self] at hk
        rw [← Option.some.inj hk]
        exact hintake
  · exact .next h

/-! ### The Completion Writer -/

omit h in
theorem NoNewPlaces.beginCompletion (s : State) : NoNewPlaces s (beginCompletion s) := by
  unfold Machine.beginCompletion
  split
  · split
    · exact .of_lanes rfl rfl
    · exact .refl s
  · exact .refl s

omit h in
theorem NoNewPlaces.drainIfComplete (s : State) : NoNewPlaces s (drainIfComplete s) := .of_lanes (by simp) (by simp)

omit h in
theorem NoNewPlaces.completeRecord (s : State) (r : HeldRecord) : NoNewPlaces s (completeRecord s r) := by
  have hwriter : ∀ w, NoNewPlaces s { s with writer := w } := fun _ => .of_lanes rfl rfl
  have hfree : ∀ t, NoNewPlaces t (freeRecordSlot t r) := by
    intro t
    unfold freeRecordSlot
    split
    · exact .freeSlot t _
    · exact .refl t
    · exact .refl t
  have hcoalesce : ∀ t b, NoNewPlaces t (coalesce t b) := by
    intro t b
    unfold coalesce
    split
    · exact .refl t
    dsimp only
    split
    · exact .of_lanes rfl rfl
    · exact .of_lanes rfl rfl
  exact (((hwriter _).trans (.promote _)).trans (hfree _)).trans (hcoalesce _ _)

theorem execCompletionTransactionStart_fitting : Fitting (execCompletionTransactionStart s) := by
  unfold execCompletionTransactionStart
  split
  · split
    · split
      · exact fitting_of_lanes h rfl rfl
      · exact fitting_of_lanes h rfl rfl
    · exact .next h
  · exact .next h

theorem execResultRecordWriteEnd_fitting (e : Epoch) (i : LaneId) (r : HostWrite) :
    Fitting (execResultRecordWriteEnd e i r s) := by
  have htxn : ∀ x, NoNewPlaces s (s.setTxn x) := fun _ => .of_lanes rfl rfl
  unfold execResultRecordWriteEnd
  split
  · split
    · dsimp only
      split
      · exact fitting_deviceFault h (htxn _) _
      · exact ((htxn _).trans (.beginCompletion _)).fitting h
    · exact .next h
  · exact .next h

theorem execCompletionRecordWriteEnd_fitting (e : Epoch) (r : HostWrite) :
    Fitting (execCompletionRecordWriteEnd e r s) := by
  unfold execCompletionRecordWriteEnd
  split
  · split
    · exact fitting_withMessage h ((NoNewPlaces.completeRecord s _).trans (.drainIfComplete _))
    · exact fitting_deviceFault h (.of_lanes (t := s.setTxn none) rfl rfl) _
  · exact .next h

theorem execCoalescingDelayExpiry_fitting : Fitting (execCoalescingDelayExpiry s) := by
  unfold execCoalescingDelayExpiry
  split
  · exact .next h
  · exact fitting_withMessage h (.of_lanes rfl rfl)

/-! ### The Staging Pool -/

theorem execStagingReadIssue_fitting : Fitting (execStagingReadIssue s) := by
  unfold execStagingReadIssue
  split
  · exact .next h
  split
  · split
    · exact fitting_of_lanes h rfl rfl
    · exact fitting_of_lanes h rfl rfl
  · exact .next h

theorem execStagingReadEnd_fitting (e : Epoch) (b : BlockId) (r : HostRead) : Fitting (execStagingReadEnd e b r s) := by
  have hpool : ∀ p, NoNewPlaces s (s.setPool p) := fun _ => .of_lanes rfl rfl
  unfold execStagingReadEnd
  split
  · exact (hpool _).fitting h
  split
  · exact .next h
  split
  · unfold blockReadEnd
    split
    · split
      · exact .next h
      split
      · exact ((hpool _).trans (.offerIfClear _ _)).fitting h
      · exact (hpool _).fitting h
    · exact (((hpool _).trans (.imageFailed _ _ _ _)).trans (.offerIfClear _ _)).fitting h
  · exact .next h

/-! ### The Loader Link -/

/-- A lane's engine, brought to its end after it has changed its own lane, takes no place. -/
theorem fitting_resolveStep {p : Stepped} (hp : KeepsQueues s p.1) (i : LaneId) : Fitting (.next (resolveStep i p)) :=
  (NoNewPlaces.resolveStep hp i).fitting h

theorem fitting_spoilFrame (i : LaneId) : Fitting (.next (spoilFrame s i)) :=
  (NoNewPlaces.trans (.modLane s i (f := fun l => { l with rx := none, linkErrors := l.linkErrors + 1 }) fun _ => le_rfl)
    (.of_keepsQueues (.retransmitAtOnce _ i))).fitting h

theorem execChunkSend_fitting (i : LaneId) : Fitting (execChunkSend i s) := by
  unfold execChunkSend
  split
  · exact fitting_resolveStep h (.proceed s i) i
  · exact .next h

theorem execReadbackWriteEnd_fitting (e : Epoch) (i : LaneId) (r : HostWrite) :
    Fitting (execReadbackWriteEnd e i r s) := by
  have hgone : KeepsQueues s (s.modLane i (fun l => { l with readback := none })) := .modLane s i fun _ => rfl
  unfold execReadbackWriteEnd
  split
  · split
    · unfold endedWriteOut
      dsimp only
      split
      · exact fitting_resolveStep h (hgone.trans (.proceed _ i)) i
      · exact (NoNewPlaces.of_keepsQueues hgone).fitting h
    · exact .next h
  · split
    · split
      · exact fitting_resolveStep h (.readbackWritten s i _ _) i
      · exact fitting_resolveStep h hgone i
    · exact .next h

theorem execFrameSent_fitting (i : LaneId) : Fitting (execFrameSent i s) := by
  have hidle : KeepsQueues s (s.modLane i (fun l => { l with tx := .idle })) := .modLane s i fun _ => rfl
  have hthen : ∀ f : Lane → Lane, (∀ l, (f l).queue = l.queue) →
      Fitting (.next ((s.modLane i (fun l => { l with tx := .idle })).modLane i f)) := fun f hf =>
    (NoNewPlaces.of_keepsQueues (hidle.trans (.modLane _ i hf))).fitting h
  unfold execFrameSent
  split
  · exact .next h
  · exact .next h
  dsimp only
  split
  · exact hthen _ fun _ => rfl
  split
  · exact hthen _ fun _ => rfl
  split
  · exact fitting_resolveStep h (hidle.trans (.proceed _ i)) i
  · exact (NoNewPlaces.of_keepsQueues hidle).fitting h

theorem execResponseTimeout_fitting (i : LaneId) : Fitting (execResponseTimeout i s) := by
  unfold execResponseTimeout
  split
  · exact .next h
  split
  · exact .next h
  split
  · exact fitting_modLane h i fun _ => rfl
  · exact (NoNewPlaces.laneFault s i _).fitting h

theorem execFrameReceived_fitting (i : LaneId) (chars : List Byte) : Fitting (execFrameReceived i chars s) := by
  unfold execFrameReceived
  split
  · split
    · exact (NoNewPlaces.trans (.modLane s i (f := fun l => { l with rx := none }) fun _ => le_rfl)
        (.takeFrame _ i _ _ _)).fitting h
    all_goals exact .next h
  · exact .next h

theorem execFrameSpoiled_fitting (i : LaneId) (chars : List Byte) (bad : Option RxChar) :
    Fitting (execFrameSpoiled i chars bad s) := by
  unfold execFrameSpoiled
  split
  · exact fitting_spoilFrame h i
  · exact .next h

theorem execFrameGapTimeout_fitting (i : LaneId) : Fitting (execFrameGapTimeout i s) := by
  unfold execFrameGapTimeout
  split
  · exact fitting_spoilFrame h i
  · exact .next h

theorem execFrameCharacterReceived_fitting (i : LaneId) (char : RxChar) :
    Fitting (execFrameCharacterReceived i char s) := by
  unfold execFrameCharacterReceived
  split
  · exact fitting_modLane h i fun _ => rfl
  · exact .next h

/-! ### The phases of ATTACH -/

theorem execTrainingPatternSent_fitting (i : LaneId) : Fitting (execTrainingPatternSent i s) := by
  unfold execTrainingPatternSent
  split
  · exact fitting_modLane h i fun _ => rfl
  · exact .next h
  · exact .next h

theorem execTrainingCharacterReceived_fitting (i : LaneId) (char : RxChar) :
    Fitting (execTrainingCharacterReceived i char s) := by
  unfold execTrainingCharacterReceived
  split
  · split
    · exact fitting_modLane h i fun _ => rfl
    · refine fitting_resolveStep h (.trans ?_ (.enterStep _ i _)) i
      exact .modLane s i fun _ => rfl
  · exact .next h

theorem execTrainingTimeout_fitting (i : LaneId) : Fitting (execTrainingTimeout i s) := by
  have hstop : NoNewPlaces s (s.modLane i (fun l => { l with training := none })) := .modLane s i fun _ => le_rfl
  unfold execTrainingTimeout
  split
  · dsimp only
    split
    · exact (hstop.trans (.laneFault _ i _)).fitting h
    split
    · exact hstop.fitting h
    split
    · refine NoNewPlaces.fitting h (hstop.trans ?_)
      exact .modLane _ i fun _ => le_rfl
    · exact hstop.fitting h
  · exact .next h

omit h in
theorem Lane.placeCheck_queue (l : Lane) : l.placeCheck.queue = l.queue := by rw [Lane.placeCheck_eq]

theorem execPowerSettleExpiry_fitting (i : LaneId) : Fitting (execPowerSettleExpiry i s) := by
  unfold execPowerSettleExpiry
  split
  · exact .next h
  · exact fitting_modLane h i fun _ => Lane.placeCheck_queue _

theorem execCheckWaitExpiry_fitting (i : LaneId) : Fitting (execCheckWaitExpiry i s) := by
  unfold execCheckWaitExpiry
  split
  · exact .next h
  · exact fitting_modLane h i fun _ => Lane.placeCheck_queue _

theorem execResetPulseExpiry_fitting (i : LaneId) : Fitting (execResetPulseExpiry i s) := by
  unfold execResetPulseExpiry
  split
  · split
    · exact fitting_modLane h i fun _ => rfl
    · exact .next h
  · exact .next h

theorem execBootSettleExpiry_fitting (i : LaneId) : Fitting (execBootSettleExpiry i s) := by
  have hstop : NoNewPlaces s (s.modLane i (fun l => { l with bootSettle := none })) := .modLane s i fun _ => le_rfl
  unfold execBootSettleExpiry
  split
  · split
    · dsimp only
      split
      · exact hstop.fitting h
      · refine NoNewPlaces.fitting h (hstop.trans ?_)
        exact .modLane _ i fun _ => le_rfl
    · exact .next h
  · exact .next h

theorem execRateGapExpiry_fitting (i : LaneId) : Fitting (execRateGapExpiry i s) := by
  unfold execRateGapExpiry
  split
  · exact .next h
  next r _ =>
  have hrate : KeepsQueues s (s.modLane i (fun l => { l with rateGap := none, rate := r })) := .modLane s i fun _ => rfl
  dsimp only
  split
  · exact fitting_resolveStep h (hrate.trans (.enterStep _ i _)) i
  · exact (NoNewPlaces.of_keepsQueues hrate).fitting h

/-! ### The Supply Monitor -/

theorem execSuperviseTimerExpiry_fitting : Fitting (execSuperviseTimerExpiry s) := by
  unfold execSuperviseTimerExpiry
  split
  · refine NoNewPlaces.fitting h (.of_keepsQueues ⟨rfl, fun k => ?_⟩)
    simp only [State.lane, Vector.getElem_map]
    split
    · rfl
    · rfl
  · exact .next h

theorem execConversionStart_fitting : Fitting (execConversionStart s) := by
  have htaken : ∀ (i : LaneId) (f : Lane → Lane) (p : Supply), (∀ l, (f l).queue = l.queue) →
      Fitting (.next { s.modLane i f with supply := p }) := fun i f p hf =>
    NoNewPlaces.fitting h ((NoNewPlaces.of_keepsQueues (.modLane s i hf)).trans (.of_lanes rfl rfl))
  unfold execConversionStart
  split
  · exact .next h
  split
  · exact htaken _ _ _ fun _ => rfl
  split
  · exact htaken _ _ _ fun _ => rfl
  · exact .next h

theorem execConversionEnd_fitting (mv : Int) : Fitting (execConversionEnd mv s) := by
  unfold execConversionEnd
  split
  · exact .next h
  next c _ =>
  have hidle : NoNewPlaces s { s with supply := { s.supply with converter := none } } := .of_lanes rfl rfl
  have hsample := hidle.trans (.modLane _ c.lane (f := fun l => { l with lastSample := sampleOf mv }) fun _ => le_rfl)
  dsimp only
  split
  · exact hidle.fitting h
  split
  · exact (hsample.trans (.takeCheck _ _ _)).fitting h
  · exact (hsample.trans (.takeSupervise _ _ _)).fitting h

theorem execOvercurrentTrip_fitting (i : LaneId) : Fitting (execOvercurrentTrip i s) := by
  unfold execOvercurrentTrip
  split
  · exact (NoNewPlaces.laneFault s i _).fitting h
  · exact .next h

/-! ### Device Control -/

omit h in
/-- Both resets leave every queue and every slot empty (R51, R164). -/
theorem resetTo_queuesFit (addr : BitVec 64) : (resetTo s addr).queuesFit := by
  intro i
  have hl : (resetTo s addr).lane i = (s.lane i).returned := by simp [resetTo, State.lane]
  have hslots : ∀ n, (resetTo s addr).slot n = none := by intro n; simp [resetTo, State.reset, State.slot]
  rw [hl, reservations_eq, List.countP_eq_zero.mpr fun n _ => by simp [State.reserves, hslots n]]
  simp [Lane.returned, Lane.reset]

omit h in
theorem NoNewPlaces.haltCommand (s : State) : NoNewPlaces s (haltCommand s) := by
  have hquiesce : NoNewPlaces s (enterQuiescing s) := .of_lanes (by simp [enterQuiescing]) (by simp [enterQuiescing])
  unfold Machine.haltCommand
  split
  · exact hquiesce
  all_goals exact .of_lanes rfl rfl

omit h in
theorem NoNewPlaces.enableCommand (s : State) : NoNewPlaces s (enableCommand s) := by
  unfold Machine.enableCommand
  split
  all_goals exact .of_lanes rfl rfl

omit h in
theorem NoNewPlaces.applySubmit (s : State) (ring index : Nat) : NoNewPlaces s (applySubmit s ring index) := by
  unfold Machine.applySubmit
  split
  · exact .of_lanes rfl rfl
  split
  · exact .of_lanes rfl rfl
  · exact .of_lanes rfl rfl

theorem execEnable_fitting (w : Bool) : Fitting (execEnable w s) := by
  refine fitting_withMessage h ?_
  split
  · exact (NoNewPlaces.enableCommand s).trans (.haltCommand _)
  · exact .enableCommand s

theorem execSubmitWrite_fitting (value : BitVec 32) : Fitting (execSubmitWrite value s) := by
  unfold execSubmitWrite
  dsimp only
  split
  · exact fitting_of_lanes h rfl rfl
  · exact fitting_of_lanes h rfl rfl
  all_goals exact (NoNewPlaces.applySubmit s _ _).fitting h

theorem execCqHeadWrite_fitting (value : BitVec 32) : Fitting (execCqHeadWrite value s) := by
  unfold execCqHeadWrite
  split
  · exact fitting_of_lanes h rfl rfl
  · exact fitting_of_lanes h rfl rfl

omit h in
theorem NoNewPlaces.configAccepted (s : State) (c : ConfigBlock) : NoNewPlaces s (configAccepted s c) := by
  have hkept : ∀ t r, NoNewPlaces t (applyKept s.ctl.keptSubmit t r) := by
    intro t r
    unfold applyKept
    split
    · exact .refl t
    · exact .applySubmit t _ _
  have hset : NoNewPlaces s (allRings.foldl (applyKept s.ctl.keptSubmit) (configured s c)) :=
    .trans (t := configured s c) (.of_lanes rfl rfl) (.foldl hkept allRings _)
  unfold Machine.configAccepted
  dsimp only
  split
  · exact hset.trans (.of_lanes (by simp [enterQuiescing]) (by simp [enterQuiescing]))
  · exact hset

theorem execConfigReadEnd_fitting (e : Epoch) (r : HostRead) : Fitting (execConfigReadEnd e r s) := by
  unfold execConfigReadEnd
  split
  · split
    · exact fitting_deviceFault h (.refl s) _
    split
    · exact .next h
    split
    · exact fitting_withMessage h (.configAccepted s _)
    · unfold configRefused
      refine NoNewPlaces.fitting h (.trans ?_ (.beginCompletion _))
      exact .of_lanes rfl rfl
  · exact .next h

/-! ### Every command -/

/-- Every command keeps every lane queue and its reservations within 4 places. -/
theorem exec_fitting (c : Instr) : Fitting (exec c s) := by
  cases c with
  | powerOnReset => exact .next (resetTo_queuesFit 0)
  | softReset => exact .next (resetTo_queuesFit _)
  | enable w => exact execEnable_fitting h w
  | halt => exact fitting_withMessage h (.haltCommand s)
  | submitWrite v => exact execSubmitWrite_fitting h v
  | cqHeadWrite v => exact execCqHeadWrite_fitting h v
  | irqWrite v => exact fitting_of_lanes h rfl rfl
  | statusWrite v => exact fitting_of_lanes h rfl rfl
  | configAddrWrite half v => exact fitting_of_lanes h rfl rfl
  | registerWriteIgnored o b v => exact .next h
  | configReadEnd e r => exact execConfigReadEnd_fitting h e r
  | drainComplete => exact fitting_withMessage h (.of_lanes (by simp) (by simp))
  | intakeArbiterChoice => exact execIntakeArbiterChoice_fitting h
  | recordReadEnd e r => exact execRecordReadEnd_fitting h e r
  | listReadEnd e n r => exact execListReadEnd_fitting h e n r
  | loadCredentialReadEnd e r => exact execLoadCredentialReadEnd_fitting h e r
  | holdingQueueEntry => exact (NoNewPlaces.promote s).fitting h
  | completionTransactionStart => exact execCompletionTransactionStart_fitting h
  | resultRecordWriteEnd e i r => exact execResultRecordWriteEnd_fitting h e i r
  | completionRecordWriteEnd e r => exact execCompletionRecordWriteEnd_fitting h e r
  | coalescingDelayExpiry => exact execCoalescingDelayExpiry_fitting h
  | stagingReadIssue => exact execStagingReadIssue_fitting h
  | stagingReadEnd e b r => exact execStagingReadEnd_fitting h e b r
  | chunkSend i => exact execChunkSend_fitting h i
  | readbackWriteEnd e i r => exact execReadbackWriteEnd_fitting h e i r
  | frameSent i => exact execFrameSent_fitting h i
  | responseTimeout i => exact execResponseTimeout_fitting h i
  | frameReceived i chars => exact execFrameReceived_fitting h i chars
  | frameSpoiled i chars bad => exact execFrameSpoiled_fitting h i chars bad
  | frameGapTimeout i => exact execFrameGapTimeout_fitting h i
  | trainingPatternSent i => exact execTrainingPatternSent_fitting h i
  | trainingCharacterReceived i char => exact execTrainingCharacterReceived_fitting h i char
  | trainingTimeout i => exact execTrainingTimeout_fitting h i
  | powerSettleExpiry i => exact execPowerSettleExpiry_fitting h i
  | checkWaitExpiry i => exact execCheckWaitExpiry_fitting h i
  | resetPulseExpiry i => exact execResetPulseExpiry_fitting h i
  | bootSettleExpiry i => exact execBootSettleExpiry_fitting h i
  | rateGapExpiry i => exact execRateGapExpiry_fitting h i
  | superviseTimerExpiry => exact execSuperviseTimerExpiry_fitting h
  | conversionStart => exact execConversionStart_fitting h
  | conversionEnd mv => exact execConversionEnd_fitting h mv
  | overcurrentTrip i => exact execOvercurrentTrip_fitting h i
  | frameCharacterReceived i char => exact execFrameCharacterReceived_fitting h i char

end Commands

/-- Settles O56: a step is the front command on the state with the rest of the queue, which has the same slots and lanes. -/
theorem everyStepKeepsQueuesWithinRoom : Obligations.EveryStepKeepsQueuesWithinRoom := by
  intro s t h hstep
  unfold step at hstep
  split at hstep
  · exact Fitting.next h t hstep
  · next rest _ =>
    exact exec_fitting (s := { s with pending := rest }) h _ t hstep

end Sys2Proof.Machine
end

section
/-! CERTIFICATES. The end of a completion record write: stage 3 of the record's transaction, the coalescing state, the drain
and the message (R54, R74, R130, R135, R138, R140, R142, R143, R161). -/

namespace Sys2Proof.Machine

/-! ### The record leaves the holding queue -/

/-- The state in which the record that has been written has left the holding queue and the completion ring (R135, R140). -/
def State.recordGone (s : State) (rest : List HeldRecord) : State :=
  { s with writer := { s.writer with ring := s.writer.ring.take, holding := rest, txn := none } }

/-- The completion ring takes the record at its tail, where the phase inverts at the wrap (R135). -/
theorem CompletionRing.take_eq (r : CompletionRing) : r.take =
    { r with
      tail := if r.tail + 1 = r.size then 0 else r.tail + 1
      phase := if r.tail + 1 = r.size then !r.phase else r.phase
      unreleased := r.unreleased + 1 } := by
  unfold CompletionRing.take
  split
  · rfl
  · rfl

/-- Some slot meets a condition that one of them meets. -/
theorem filter_allSlots_ne_nil {f : SlotId → Bool} {n : SlotId} (h : f n = true) : allSlots.filter f ≠ [] :=
  fun e => List.filter_eq_nil_iff.mp e n (mem_allSlots n) h

/-- A slot freed after a candidate has entered: of what the entry leaves, the ring conditions are those of a slot freed
(R130). -/
theorem entersFrom_freeSlot {s u : State} {front : Option Candidate} {l l' : List SlotId} (h : s.entersFrom u front l)
    (hl' : l' ≠ []) (n : SlotId) : s.entersFrom (freeSlot u n) front l' := by
  obtain ⟨heng, harb, -, -, -, -, hring, -⟩ := freeSlot_more u n
  have hlane : ∀ i, (freeSlot u n).lane i = u.lane i := State.lane_congr (freeSlot_frame u n).2.1
  have hblocked : ∀ r, ((freeSlot u n).ring r).blocked = (u.ring r).slotFreed.blocked := fun r => by rw [hring r]
  have hfreed : ∀ r, (u.ring r).slotFreed.blocked =
      if (u.ring r).blocked = .slot then Blocked.none else (u.ring r).blocked := by
    intro r
    unfold Ring.slotFreed
    split
    · rfl
    · rfl
  have hconsumer : ∀ r, ((freeSlot u n).ring r).consumer = (u.ring r).consumer := fun r => by rw [hring r]
  have hintake : ∀ r, ((freeSlot u n).ring r).inIntake = (u.ring r).inIntake := fun r => by rw [hring r]
  constructor
  case engine => rw [heng]; exact h.engine
  case lanes => intro i; rw [hlane]; exact h.lanes i
  case arbiter => rw [harb]; exact h.arbiter
  case ring => intro r; rw [hring r, h.ring r]
  case consumer => intro x hf hx; rw [hconsumer]; exact h.consumer x hf hx
  case consumerKept => intro r hr; rw [hconsumer]; exact h.consumerKept r hr
  case inIntake => intro r; rw [hintake]; exact h.inIntake r
  case held => intro r hr; rw [hblocked, hfreed, h.held r hr]; rfl
  case onSlot =>
    intro r hr
    rw [hblocked, hfreed, if_neg hl', h.onSlot r hr]
    split
    · rfl
    · split
      · next h1 h2 => exact absurd (if_pos h2) h1
      · rfl
  case onQueue =>
    intro r hr
    obtain ⟨hcase, hiff⟩ := h.onQueue r hr
    have hkept : ((freeSlot u n).ring r).blocked = (u.ring r).blocked := by
      rw [hblocked, hfreed, if_neg]
      rcases hcase with hc | hc
      · rw [hc]; exact nofun
      · rw [hc]; exact nofun
    rw [hkept]
    exact ⟨hcase, hiff⟩

/-- From `s` to `w` the head record `h` has left the holding queue, the front of the wait list has taken its place, and the
record's slot is FREE (R54, R138, R140). -/
theorem freeRecordSlot_enters (s : State) (h : HeldRecord) (rest : List HeldRecord) :
    let room : Bool := s.ctl.device != .fault && decide (rest.length < 8)
    let front : Option Candidate :=
      if room then s.writer.waitList.head?.filter (fun c => (s.recordFor c).isSome) else none
    let waits : List Candidate := if room then s.writer.waitList.tail else s.writer.waitList
    State.Enters (s.recordGone rest) (freeRecordSlot (promote (s.recordGone rest)) h) front
      (fun m => h == .job m || front == some (.intakeJob m)) (rest ++ (front.bind s.recordFor).toList) waits := by
  intro room front waits
  have E : State.Enters (s.recordGone rest) (promote (s.recordGone rest)) front
      (fun m => front == some (.intakeJob m)) (rest ++ (front.bind s.recordFor).toList) waits :=
    promote_enters (s.recordGone rest)
  have hother : (∀ n, h ≠ .job n) → (fun m => h == .job m || front == some (.intakeJob m)) =
      fun m : SlotId => front == some (.intakeJob m) := by
    intro hn
    funext m
    rw [beq_eq_false_iff_ne.mpr (hn m), Bool.false_or]
  cases h with
  | job n =>
    generalize hu : promote (s.recordGone rest) = u at E ⊢
    obtain ⟨-, -, hr, ht, hc, hd, -, hbp, hhold, hwait, hlen⟩ := freeSlot_more u n
    have hfreed : (fun m => HeldRecord.job n == .job m || front == some (.intakeJob m)) =
        fun m : SlotId => front == some (.intakeJob m) || m == n := by
      funext m
      have hjob : (HeldRecord.job n == .job m) = (m == n) := by
        rw [Bool.eq_iff_iff, beq_iff_eq, beq_iff_eq, HeldRecord.job.injEq]
        exact eq_comm
      rw [hjob, Bool.or_comm]
    rw [hfreed]
    refine ⟨frees_trans (by rw [E.re.1]) E.fr (freeSlot_frees u n) hbp hhold hwait hlen, ?_, ?_, ?_⟩
    · refine entersFrom_freeSlot E.en ?_ n
      refine filter_allSlots_ne_nil (n := n) ?_
      rw [beq_self_eq_true, Bool.or_true]
    · obtain ⟨h1, h2, h3, h4⟩ := E.wr
      exact ⟨hr.trans h1, ht.trans h2, hc.trans h3, hd.trans h4⟩
    · obtain ⟨h1, h2, h3, h4⟩ := E.re
      obtain ⟨g1, -, g3, g4, g5, -⟩ := freeSlot_frame u n
      exact ⟨g1.trans h1, g3.trans h2, g4.trans h3, g5.trans h4⟩
  | intake c => rw [hother fun _ => nofun]; exact E
  | event i e => rw [hother fun _ => nofun]; exact E

/-! ### Coalescing, the drain and the message -/

/-- The coalescing state takes a record, and signals where it is due (R142). -/
theorem coalesce_eq {s : State} {k : Settings} (hk : s.ctl.inForce = some k) (irqNow : Bool) :
    let signal : Bool := decide (k.threshold ≤ s.writer.count + 1) || decide (k.delay = 0) || irqNow
    coalesce s irqNow =
      { s with
        writer :=
          { s.writer with
            count := if signal then 0 else s.writer.count + 1
            delayTimer := if signal then none else if s.writer.count = 0 then some k.delay else s.writer.delayTimer }
        ctl := { s.ctl with irq := { s.ctl.irq with cq := s.ctl.irq.cq || signal } } } := by
  intro signal
  unfold coalesce
  split
  · next hnone => rw [hk] at hnone; cases hnone
  next c hc =>
  obtain rfl : k = c := by rw [hk] at hc; exact Option.some.inj hc
  dsimp only
  split
  · next hs => rw [show signal = true from hs]; simp [cqSignal, State.raise]
  · next hs => rw [show signal = false from Bool.eq_false_iff.mpr hs]; simp

/-- Every slot is FREE where none is in use (R54). -/
theorem slotsInUse_eq_zero (s : State) : slotsInUse s = 0 ↔ ∀ n : SlotId, s.slot n = none := by
  unfold slotsInUse
  rw [List.countP_eq_zero]
  constructor
  · intro h n
    simpa [State.slot] using h n (mem_allSlots n)
  · intro h n _
    have hn : s.slots[n] = none := h n
    simp [hn]

/-- The drain conditions as the drain tests them (R161). -/
theorem drained_iff (s : State) : (slotsInUse s == 0 && s.writer.holding.isEmpty && s.intake.engine == .free) = true ↔
    s.drained := by
  unfold State.drained
  rw [Bool.and_eq_true, Bool.and_eq_true, beq_iff_eq, beq_iff_eq, List.isEmpty_iff, slotsInUse_eq_zero, and_assoc]

/-- QUIESCING ends in HALTED exactly where the drain is complete (R161). -/
theorem drainIfComplete_eq (s : State) : ∃ halts : Bool, (halts = true ↔ s.ctl.device = .quiescing ∧ s.drained) ∧
    drainIfComplete s = { s with ctl :=
      { s.ctl with
        device := if halts then .halted else s.ctl.device
        irq := { s.ctl.irq with halt := s.ctl.irq.halt || halts } } } := by
  by_cases h : s.ctl.device = .quiescing ∧ s.drained
  · refine ⟨true, iff_of_true rfl h, ?_⟩
    have hc : (decide (s.ctl.device = .quiescing) && slotsInUse s == 0 && s.writer.holding.isEmpty
        && s.intake.engine == .free) = true := by
      rw [Bool.and_assoc, Bool.and_assoc, Bool.and_eq_true, decide_eq_true_eq, ← Bool.and_assoc, drained_iff]
      exact h
    unfold drainIfComplete
    rw [if_pos hc]
    simp [State.raise]
  · refine ⟨false, iff_of_false Bool.false_ne_true h, ?_⟩
    have hc : ¬ (decide (s.ctl.device = .quiescing) && slotsInUse s == 0 && s.writer.holding.isEmpty
        && s.intake.engine == .free) = true := by
      rw [Bool.and_assoc, Bool.and_assoc, Bool.and_eq_true, decide_eq_true_eq, ← Bool.and_assoc, drained_iff]
      exact h
    unfold drainIfComplete
    rw [if_neg hc]
    simp

/-- One message at most tells of a happening (R143). -/
theorem withMessage_eq (b s : State) : withMessage b s = { s with ctl :=
    { s.ctl with messages := s.ctl.messages + (if newlySet s.mask b.ctl.irq s.ctl.irq then 1 else 0) } } := by
  unfold withMessage
  split
  · rfl
  · rfl

/-- Where the CQ and HALT bits may have been set, an enabled one of them is new (R143). -/
theorem newlySet_cq_halt (mask irq : IrqBits) (cq halt : Bool) :
    newlySet mask irq { irq with cq := irq.cq || cq, halt := irq.halt || halt } =
      ((mask.cq && !irq.cq && cq) || (mask.halt && !irq.halt && halt)) := by
  obtain ⟨c, f, h⟩ := irq
  cases c <;> cases f <;> cases h <;> simp [newlySet]

/-- A record's own IRQ_NOW flag (R142). -/
theorem recordIrq_eq (s : State) (h : HeldRecord) : recordIrq s h =
    match h with
    | .job n => (s.slot n).any (fun j => j.spec.flags.getLsbD 0)
    | .intake c => c.irqNow
    | .event _ _ => false := by
  cases h with
  | job n =>
    cases hj : s.slot n with
    | none => simp [recordIrq, hj]
    | some j => simp [recordIrq, hj, JobSpec.irqNow]
  | intake c => rfl
  | event i e => rfl

/-- Settles O28: the record leaves, the front of the wait list enters, the slot is freed, and then the coalescing state, the
drain and the message follow. -/
theorem recordWriteEndFreesTheSlot : Obligations.RecordWriteEndFreesTheSlot := by
  intro s o h rest k htxn hhold hk r irqNow signal room front waits freed
  obtain ⟨hfr, hen, ⟨hring, htx, hcount, htimer⟩, hctl, hpool, hcreds, hsupply⟩ := freeRecordSlot_enters s h rest
  set w : State := freeRecordSlot (promote (s.recordGone rest)) h with hw
  have hdone : completeRecord s h = coalesce w irqNow := by
    have hirq : recordIrq s h = irqNow := recordIrq_eq s h
    unfold completeRecord
    rw [hirq, hhold]
    rfl
  have hsignal : (decide (k.threshold ≤ w.writer.count + 1) || decide (k.delay = 0) || irqNow) = signal := by
    rw [hcount]; rfl
  have hctl' : w.ctl = s.ctl := hctl
  have hcoalesce := coalesce_eq (s := w) (k := k) (by rw [hctl']; exact hk) irqNow
  rw [hsignal, ← hdone] at hcoalesce
  obtain ⟨halts, hhalts, hdrain⟩ := drainIfComplete_eq (completeRecord s h)
  refine ⟨withMessage s (drainIfComplete (completeRecord s h)), ?_, ?_⟩
  · simp [exec, execCompletionRecordWriteEnd, htxn, hhold]
  rw [withMessage_eq, hdrain, hcoalesce]
  rw [hcoalesce] at hhalts
  refine ⟨?_, htx, ?_, ?_, ?_, ?_, ⟨halts, ?_, ?_⟩, hpool, hcreds, hsupply⟩
  · exact hring.trans (CompletionRing.take_eq r)
  · intro hs
    simp [hs]
  · intro hs
    simp only [hs, Bool.false_eq_true, if_false, hcount, htimer]
    exact ⟨rfl, rfl⟩
  · exact frees_congr (s' := s.recordGone rest) (t' := w) rfl rfl rfl rfl rfl rfl rfl hfr
  · exact enters_congr (s' := s.recordGone rest) (t' := w) rfl rfl rfl rfl rfl hen
  · have hdevice : w.ctl.device = s.ctl.device := by rw [hctl']
    refine hhalts.trans (and_congr_left' ?_)
    change w.ctl.device = _ ↔ _
    rw [hdevice]
  · have hmask : ∀ (t : State), t.ctl.inForce = some k → t.mask = k.mask := by
      intro t ht
      simp [State.mask, ht]
    rw [hmask _ (by simp only [hctl']; exact hk)]
    simp only [hctl']
    rw [newlySet_cq_halt]

end Sys2Proof.Machine
end

section
/-! JOBS AND LANE QUEUES. The status of a job from the outcomes of its lanes (R73). -/

namespace Sys2Proof.Machine

/-! ### Lane sets -/

theorem inSet_addLane (m : BitVec 16) (i j : LaneId) : inSet (addLane m j) i = true ↔ inSet m i = true ∨ i = j := by
  unfold inSet addLane laneBit
  rw [BitVec.getLsbD_or, Bool.or_eq_true, BitVec.getLsbD_twoPow]
  refine or_congr_right ?_
  have hj : decide (j.val < 16) = true := decide_eq_true j.isLt
  rw [hj, Bool.true_and, decide_eq_true_eq, Fin.ext_iff, eq_comm]

theorem inSet_foldl_addLane (l : List LaneId) (m : BitVec 16) (i : LaneId) :
    inSet (l.foldl addLane m) i = true ↔ inSet m i = true ∨ i ∈ l := by
  induction l generalizing m with
  | nil => simp
  | cons j l ih => rw [List.foldl_cons, ih, inSet_addLane, or_assoc, List.mem_cons]

theorem not_inSet_zero (i : LaneId) : inSet 0 i = false := by simp [inSet]

/-- A lane is in the set of the lanes that satisfy `p` exactly when it satisfies `p`. -/
theorem inSet_laneSetOf (p : LaneId → Bool) (i : LaneId) : inSet (laneSetOf p) i = true ↔ p i = true := by
  unfold laneSetOf
  rw [inSet_foldl_addLane, not_inSet_zero]
  simp [allLanes]

theorem inSet_without (a b : BitVec 16) (i : LaneId) :
    inSet (a &&& ~~~ b) i = true ↔ inSet a i = true ∧ ¬ inSet b i = true := by
  unfold inSet
  have hi : decide (i.val < 16) = true := decide_eq_true i.isLt
  rw [BitVec.getLsbD_and, BitVec.getLsbD_not, hi]
  simp

/-- The empty lane set is the one in which no lane is. -/
theorem laneSet_eq_zero_iff (m : BitVec 16) : m = 0 ↔ ∀ i : LaneId, ¬ inSet m i = true := by
  constructor
  · rintro rfl i
    rw [not_inSet_zero]
    exact Bool.false_ne_true
  · intro h
    refine BitVec.eq_of_getLsbD_eq fun k hk => ?_
    exact (Bool.eq_false_iff.mpr (h ⟨k, hk⟩)).trans (not_inSet_zero ⟨k, hk⟩).symm

/-! ### The masks and the status -/

/-- The lanes of the job that have the outcome `o`. -/
theorem Job.inSet_okMask (j : Job) (i : LaneId) :
    inSet j.okMask i = true ↔ inSet j.spec.lanes i = true ∧ j.outcome i = some .ok := by
  unfold Job.okMask
  rw [inSet_laneSetOf, Bool.and_eq_true, beq_iff_eq]

/-- The lanes of the job that do not have the outcome OK. -/
theorem Job.inSet_failMask (j : Job) (i : LaneId) : inSet (j.spec.lanes &&& ~~~ j.okMask) i = true ↔
    inSet j.spec.lanes i = true ∧ j.outcome i ≠ some .ok := by
  rw [inSet_without, j.inSet_okMask]
  exact and_congr_right fun hi => not_congr (and_iff_right hi)

theorem Job.fixStatus_masks (j : Job) : j.fixStatus.okMask = j.okMask ∧
    j.fixStatus.failMask = j.spec.lanes &&& ~~~ j.okMask := by
  unfold Job.fixStatus
  dsimp only
  split
  · exact ⟨rfl, rfl⟩
  split
  · exact ⟨rfl, rfl⟩
  split
  · exact ⟨rfl, rfl⟩
  · exact ⟨rfl, rfl⟩

/-- Some lane of the job has the outcome ABORTED. -/
def Job.someAborted (j : Job) : Prop := ∃ i : LaneId, inSet j.spec.lanes i = true ∧ j.outcome i = some .aborted

/-- Some lane of the job has the outcome OK. -/
def Job.someOk (j : Job) : Prop := ∃ i : LaneId, inSet j.spec.lanes i = true ∧ j.outcome i = some .ok

/-- Some lane of the job does not have the outcome OK. -/
def Job.someNotOk (j : Job) : Prop := ∃ i : LaneId, inSet j.spec.lanes i = true ∧ j.outcome i ≠ some .ok

open Classical in
/-- The status of a job goes by three questions about its lanes, in the order of R73. -/
theorem Job.fixStatus_status (j : Job) : j.fixStatus.status =
    if j.someAborted then .aborted else if ¬ j.someNotOk then .success else if ¬ j.someOk then .failed else .partly := by
  have habort : allLanes.any (fun i => inSet j.spec.lanes i && j.outcome i == some .aborted) = true ↔ j.someAborted := by
    simp [allLanes, Job.someAborted]
  have hfail : j.spec.lanes &&& ~~~ j.okMask = 0 ↔ ¬ j.someNotOk := by
    rw [laneSet_eq_zero_iff, Job.someNotOk, not_exists]
    exact forall_congr' fun i => not_congr (j.inSet_failMask i)
  have hok : j.okMask = 0 ↔ ¬ j.someOk := by
    rw [laneSet_eq_zero_iff, Job.someOk, not_exists]
    exact forall_congr' fun i => not_congr (j.inSet_okMask i)
  unfold Job.fixStatus
  dsimp only
  rw [if_congr habort rfl rfl]
  split
  · rfl
  rw [if_congr hfail rfl rfl]
  split
  · rfl
  rw [if_congr hok rfl rfl]
  split
  · rfl
  · rfl

/-- Settles O29: the masks lane by lane, and the status by the three questions of R73. An ABORTED lane is not OK, and
where none is OK and the set is not empty some lane is not OK. -/
theorem jobStatusFromOutcomes : Obligations.JobStatusFromOutcomes := by
  intro j _ has
  obtain ⟨hokMask, hfailMask⟩ := j.fixStatus_masks
  have hstatus := j.fixStatus_status
  have hnotOk : j.someAborted → j.someNotOk := fun ⟨i, hi, hx⟩ => ⟨i, hi, by rw [hx]; exact nofun⟩
  have hallOk : ¬ j.someNotOk ↔ ∀ i : LaneId, inSet j.spec.lanes i = true → j.outcome i = some .ok := by
    simp [Job.someNotOk]
  have hempty : ¬ j.someOk → (j.someNotOk ↔ j.spec.lanes ≠ 0) := by
    intro hno
    rw [Ne, laneSet_eq_zero_iff, not_forall_not]
    exact ⟨fun ⟨i, hi, _⟩ => ⟨i, hi⟩, fun ⟨i, hi⟩ => ⟨i, hi, fun hx => hno ⟨i, hi, hx⟩⟩⟩
  rw [hokMask, hfailMask, hstatus]
  refine ⟨j.inSet_okMask, j.inSet_failMask, ?_⟩
  change (_ ↔ j.someAborted) ∧ _ ∧ (_ ↔ ¬ j.someAborted ∧ j.someOk ∧ j.someNotOk) ∧
    (_ ↔ ¬ j.someAborted ∧ ¬ j.someOk ∧ _)
  rw [← hallOk]
  split
  · next h => simp [h, hnotOk h]
  split
  · next ha hn =>
    have hlanes : ¬ j.someOk → ¬ j.spec.lanes ≠ 0 := fun ho => mt (hempty ho).mpr hn
    simpa [ha, hn] using hlanes
  split
  · next ha hn ho => simpa [ha, hn, ho] using (hempty ho).mp (not_not.mp hn)
  · next ha hn ho => simp [ha, not_not.mp hn, not_not.mp ho]

end Sys2Proof.Machine
end

section
/-! JOBS AND LANE QUEUES. The four pre-checks in their order (R59, R60). -/

namespace Sys2Proof.Machine

/-! ### Each pre-check -/

/-- The protection levels from which a job's requests are refused, by its kind (R60). -/
theorem levelRefuses_iff (level : Nat) (j : JobSpec) : levelRefuses level j = true ↔
    (((j.params.kind = .program ∨ j.params.kind = .verify ∨ j.params.kind = .readback ∨
        (j.params.kind = .erase ∧ ¬ (j.params.kind = .erase ∧ j.flags.getLsbD 2 = true))) ∧ 1 ≤ level) ∨
      ((j.params.kind = .protect ∨ (j.params.kind = .erase ∧ j.flags.getLsbD 2 = true)) ∧ 2 ≤ level)) := by
  rw [show j.flags.getLsbD 2 = j.eraseAll from rfl]
  unfold levelRefuses
  split
  · next h =>
    rw [h]
    cases j.eraseAll
    · simp
    · simp
  all_goals next h => simp [h]

/-- A range that does not lie in flash (R60). -/
theorem Identity.outside_iff (d : Identity) (a n : Nat) : d.outside a n = true ↔
    a < d.flashBase.toNat ∨ d.flashBase.toNat + d.flashSize.toNat < a + n := by
  unfold Identity.outside
  rw [Bool.or_eq_true, decide_eq_true_eq, decide_eq_true_eq]

/-- An address or a length that is not aligned as the kind requires (R60). -/
theorem Identity.misaligned_iff (d : Identity) (k : JobKind) (e : Segment) : d.misaligned k e = true ↔
    (k = .erase ∧ ((e.target.toNat - d.flashBase.toNat) % d.sectorSize.toNat ≠ 0 ∨ e.length % d.sectorSize.toNat ≠ 0)) ∨
      (k = .program ∧ (e.target.toNat % d.granule.toNat ≠ 0 ∨ e.length % d.granule.toNat ≠ 0)) := by
  cases k <;> simp [Identity.misaligned]

/-! ### The first range that fails -/

/-- A range of flash as an address and a length. -/
def Segment.range (e : Segment) : BitVec 32 × Nat := (e.target, e.length)

/-- `find?` gives an element whose range is the first that fails. -/
theorem find?_range_of_first {l : List Segment} {p : Segment → Bool} {bad : BitVec 32 × Nat → Prop}
    (hp : ∀ e, p e = true ↔ bad e.range) {k : Nat} {x : BitVec 32 × Nat} (hx : (l.map Segment.range)[k]? = some x)
    (hbad : bad x) (hfirst : ∀ m y, m < k → (l.map Segment.range)[m]? = some y → ¬ bad y) :
    ∃ e, l.find? p = some e ∧ e.range = x := by
  induction l generalizing k with
  | nil => cases hx
  | cons e l ih =>
    cases k with
    | zero =>
      obtain rfl : e.range = x := by simpa using hx
      exact ⟨e, List.find?_cons_of_pos ((hp e).mpr hbad), rfl⟩
    | succ k =>
      have he : ¬ p e = true := fun h => hfirst 0 e.range (Nat.succ_pos k) rfl ((hp e).mp h)
      rw [List.find?_cons_of_neg he]
      exact ih hx fun m y hm hy => hfirst (m + 1) y (Nat.succ_lt_succ hm) hy

/-- `find?` gives nothing where no range fails. -/
theorem find?_range_eq_none {l : List Segment} {p : Segment → Bool} {bad : BitVec 32 × Nat → Prop}
    (hp : ∀ e, p e = true ↔ bad e.range) (hgood : ∀ x ∈ l.map Segment.range, ¬ bad x) : l.find? p = none :=
  List.find?_eq_none.mpr fun e he h => hgood e.range (List.mem_map_of_mem he) ((hp e).mp h)

/-- The ranges that a job in a session would touch, by its kind and parameters (R60). -/
theorem Job.ranges_range (j : Job) (ranges : List (BitVec 32 × Nat))
    (hlist : j.spec.params.kind = .program ∨ j.spec.params.kind = .verify ∨ (j.spec.params.kind = .erase ∧
      ¬ (j.spec.params.kind = .erase ∧ j.spec.flags.getLsbD 2 = true)) → ranges = j.list.map (fun e => (e.target, e.length)))
    (hread : ∀ (target : BitVec 32) (len stride : Nat) (dest : BitVec 64),
      j.spec.params = .readback target len dest stride → ranges = [(target, len)])
    (hnone : j.spec.params.kind = .protect ∨ (j.spec.params.kind = .erase ∧ j.spec.flags.getLsbD 2 = true) → ranges = [])
    (hkind : j.spec.params.kind = .program ∨ j.spec.params.kind = .verify ∨ j.spec.params.kind = .erase ∨
      j.spec.params.kind = .readback ∨ j.spec.params.kind = .protect) : j.ranges.map Segment.range = ranges := by
  unfold Job.ranges
  split
  · next h =>
    have hk : j.spec.params.kind = .erase := by rw [h]; rfl
    cases hall : j.spec.flags.getLsbD 2
    · rw [hlist (.inr (.inr ⟨hk, fun hc => Bool.false_ne_true (hall.symm.trans hc.2)⟩))]
      simp only [JobSpec.eraseAll, hall]
      rfl
    · rw [hnone (.inr ⟨hk, hall⟩)]
      simp only [JobSpec.eraseAll, hall]
      rfl
  · next h => rw [hlist (.inl (by rw [h]; rfl))]; rfl
  · next h => rw [hlist (.inr (.inl (by rw [h]; rfl)))]; rfl
  · next h => rw [hread _ _ _ _ h]; rfl
  · next h => rw [hnone (.inl (by rw [h]; rfl))]; rfl
  all_goals next h => rw [h] at hkind; simp [Params.kind] at hkind

/-! ### The verdict -/

theorem preCheck_locked (d : Identity) (j : Job) : preCheck d false j = some (Verdict.plain .notUnlocked) := rfl

theorem preCheck_refused {d : Identity} {j : Job} (h : levelRefuses d.level.toNat j.spec = true) :
    preCheck d true j = some (Verdict.plain .guarded) := by
  simp [preCheck, h]

theorem preCheck_outside {d : Identity} {j : Job} {e : Segment} (hl : levelRefuses d.level.toNat j.spec = false)
    (he : j.ranges.find? (fun e => d.outside e.target.toNat e.length) = some e) :
    preCheck d true j = some { Verdict.plain .range with addr := some e.target } := by
  simp [preCheck, hl, he]

theorem preCheck_misaligned {d : Identity} {j : Job} {e : Segment} (hl : levelRefuses d.level.toNat j.spec = false)
    (ho : j.ranges.find? (fun e => d.outside e.target.toNat e.length) = none)
    (he : j.ranges.find? (d.misaligned j.spec.params.kind) = some e) :
    preCheck d true j = some { Verdict.plain .align with addr := some e.target } := by
  simp [preCheck, hl, ho, he]

theorem preCheck_passed {d : Identity} {j : Job} (hl : levelRefuses d.level.toNat j.spec = false)
    (ho : j.ranges.find? (fun e => d.outside e.target.toNat e.length) = none)
    (hm : j.ranges.find? (d.misaligned j.spec.params.kind) = none) : preCheck d true j = none := by
  simp [preCheck, hl, ho, hm]

/-- Settles O21: each pre-check decides where those before it pass, and `find?` gives the first range that fails. -/
theorem preChecksInOrder : Obligations.PreChecksInOrder := by
  intro d unlocked j kind level base whole refused outside misaligned fails
  refine ⟨?_, ?_, ?_⟩
  · rintro rfl
    exact preCheck_locked d j
  · rintro rfl h
    exact preCheck_refused ((levelRefuses_iff _ _).mpr h)
  rintro ranges hlist hread hnone hkind rfl hallowed
  have hl : levelRefuses d.level.toNat j.spec = false :=
    Bool.eq_false_iff.mpr fun h => hallowed ((levelRefuses_iff _ _).mp h)
  have hout : ∀ e : Segment, d.outside e.target.toNat e.length = true ↔ outside e.range :=
    fun e => d.outside_iff e.target.toNat e.length
  have hmis : ∀ e : Segment, d.misaligned kind e = true ↔ misaligned e.range := fun e => d.misaligned_iff kind e
  obtain rfl := j.ranges_range ranges hlist hread hnone hkind
  refine ⟨?_, fun hin => ?_⟩
  · intro k x hx hbad hfirst
    obtain ⟨e, he, rfl⟩ := find?_range_of_first hout hx hbad hfirst
    exact preCheck_outside hl he
  have ho := find?_range_eq_none hout hin
  refine ⟨?_, fun hal => preCheck_passed hl ho (find?_range_eq_none hmis hal)⟩
  intro k x hx hbad hfirst
  obtain ⟨e, he, rfl⟩ := find?_range_of_first hmis hx hbad hfirst
  exact preCheck_misaligned hl ho he

end Sys2Proof.Machine
end

section
/-! CERTIFICATES. Lane result records and completion records as lists of little-endian fields (R75, R137, R167, R168). -/

namespace Sys2Proof.Machine

/-! ### Records as lists of fields -/

theorem length_leBytes (w v : Nat) : (leBytes w v).length = w := by
  induction w generalizing v with
  | zero => rfl
  | succ w ih => rw [leBytes, List.length_cons, ih]

/-- A field reads back as the number written to it, reduced to the field's width. -/
theorem leNat_leBytes (w v : Nat) : leNat (leBytes w v) = v % 256 ^ w := by
  induction w generalizing v with
  | zero => simp [leBytes, leNat, Nat.mod_one]
  | succ w ih =>
    have hcons : leNat (leBytes (w + 1) v) = v % 256 + 256 * leNat (leBytes w (v / 256)) := by
      simp [leBytes, leNat, BitVec.toNat_ofNat]
    rw [hcons, ih, Nat.pow_succ', Nat.mod_mul]

/-- The bytes of a record whose fields, from its first byte on, have the given widths in bytes and values. -/
def fieldBytes (fs : List (Nat × Nat)) : List Byte := fs.flatMap fun f => leBytes f.1 f.2

/-- The bytes that fields take. -/
def fieldsWidth (fs : List (Nat × Nat)) : Nat := (fs.map Prod.fst).sum

theorem fieldBytes_append (fs gs : List (Nat × Nat)) : fieldBytes (fs ++ gs) = fieldBytes fs ++ fieldBytes gs :=
  List.flatMap_append

theorem length_fieldBytes (fs : List (Nat × Nat)) : (fieldBytes fs).length = fieldsWidth fs := by
  simp [fieldBytes, fieldsWidth, List.length_flatMap, length_leBytes]

/-- Field number `k` of a record, read at the offset where the fields before it end. -/
theorem leField_fieldBytes {fs : List (Nat × Nat)} {k w v : Nat} (h : fs[k]? = some (w, v)) :
    leField (fieldBytes fs) (fieldsWidth (fs.take k)) w = v % 256 ^ w := by
  obtain ⟨hk, hget⟩ := List.getElem?_eq_some_iff.mp h
  have hsplit : fieldBytes fs = fieldBytes (fs.take k) ++ (leBytes w v ++ fieldBytes (fs.drop (k + 1))) := by
    conv_lhs => rw [← List.take_append_drop k fs, List.drop_eq_getElem_cons hk, hget, fieldBytes_append]
    rfl
  rw [leField, slice, hsplit, List.drop_left' (length_fieldBytes _), List.take_left' (length_leBytes w v), leNat_leBytes]

/-- `leField_fieldBytes` for a value that its field can hold. -/
theorem leField_fieldBytes_of_lt {fs : List (Nat × Nat)} {k w v : Nat} (h : fs[k]? = some (w, v)) (hv : v < 256 ^ w) :
    leField (fieldBytes fs) (fieldsWidth (fs.take k)) w = v := by
  rw [leField_fieldBytes h, Nat.mod_eq_of_lt hv]

theorem byte_eq_leBytes (b : Byte) : [b] = leBytes 1 b.toNat := by simp [leBytes]

/-! ### Result records -/

/-- The fields of a result record before its byte 12 (11.2). -/
def resultHead (i : LaneId) (r : LaneResult) : List (Nat × Nat) :=
  [(1, i.val), (1, r.outcome.code), (1, ((r.nak.map NakReason.code).getD 0).toNat),
    (1, ((r.kind.map ReqKind.code).getD 0).toNat), (4, (r.addr.map BitVec.toNat).getD 0), (1, (resultFlagByte r).toNat),
    (1, 0), (2, r.sample)]

/-- The fields of a result record from its byte 12 on (11.2, R168). -/
def resultTail (b : ResultBody) : List (Nat × Nat) :=
  match b with
  | .counters sent retr link bytes =>
    [(4, counterField sent), (4, counterField retr), (4, counterField link), (4, counterField bytes), (4, 0)]
  | .attach none _ => List.replicate 20 (1, 0)
  | .attach (some d) _ =>
    [(2, d.deviceClass.toNat), (1, d.loaderVersion.toNat), (1, d.level.toNat), (4, d.flashBase.toNat),
      (4, d.flashSize.toNat), (4, d.sectorSize.toNat), (1, d.granule.toNat), (1, d.maxWrite.toNat),
      (1, d.attempts.toNat), (1, d.rates.toNat)]

theorem resultBodyBytes_eq (b : ResultBody) : resultBodyBytes b = fieldBytes (resultTail b) := by
  cases b with
  | counters sent retr link bytes => simp [resultBodyBytes, resultTail, fieldBytes]
  | attach d u =>
    cases d with
    | none => rfl
    | some d => simp [resultBodyBytes, resultTail, fieldBytes, ← byte_eq_leBytes]

theorem resultRecord_eq (i : LaneId) (r : LaneResult) :
    resultRecord i r = fieldBytes (resultHead i r ++ resultTail r.body) := by
  rw [fieldBytes_append, ← resultBodyBytes_eq]
  simp [resultRecord, resultHead, fieldBytes, leBytes]

theorem fieldsWidth_resultTail (b : ResultBody) : fieldsWidth (resultTail b) = 20 := by
  cases b with
  | counters sent retr link bytes => rfl
  | attach d u =>
    cases d with
    | none => rfl
    | some d => rfl

theorem length_resultRecord (i : LaneId) (r : LaneResult) : (resultRecord i r).length = 32 := by
  have hsum : fieldsWidth (resultHead i r ++ resultTail r.body) = 12 + fieldsWidth (resultTail r.body) := by
    rw [fieldsWidth, List.map_append, List.sum_append]
    rfl
  rw [resultRecord_eq, length_fieldBytes, hsum, fieldsWidth_resultTail]

theorem LaneOutcome.code_lt (o : LaneOutcome) : o.code < 256 := by
  cases o with
  | faulted c => cases c <;> decide
  | _ => decide

/-- Byte 8 of a result record (11.2). -/
theorem resultFlagByte_toNat (r : LaneResult) : (resultFlagByte r).toNat = (if r.addr.isSome then 1 else 0) +
    (match r.body with
      | .counters _ _ _ _ => 0
      | .attach none _ => 0
      | .attach (some d) u => (if u then 2 else 0) + (if d.credentialRequired then 4 else 0)) := by
  have hbyte : ∀ a b c : Bool, (BitVec.ofNat 8 (bitAt a 0 + (bitAt b 1 + bitAt c 2))).toNat =
      (if a then 1 else 0) + ((if b then 2 else 0) + (if c then 4 else 0)) := by decide
  unfold resultFlagByte
  cases r.body with
  | counters sent retr link bytes => exact hbyte _ false false
  | attach d u =>
    cases d with
    | none => exact hbyte _ false false
    | some d => exact hbyte _ u d.credentialRequired

/-- A field of the part that every result record has. -/
theorem leField_resultHead {i : LaneId} {r : LaneResult} {k w v : Nat} (hk : k < 8)
    (h : (resultHead i r)[k]? = some (w, v)) (hv : v < 256 ^ w) :
    leField (resultRecord i r) (fieldsWidth ((resultHead i r).take k)) w = v := by
  have hlen : (resultHead i r).length = 8 := rfl
  rw [resultRecord_eq]
  have hget : (resultHead i r ++ resultTail r.body)[k]? = some (w, v) := by
    rw [List.getElem?_append_left (hlen.symm ▸ hk), h]
  have hread := leField_fieldBytes_of_lt hget hv
  rwa [List.take_append_of_le_length (by rw [hlen]; exact hk.le)] at hread

/-- A field of the part that depends on the job. -/
theorem leField_resultTail {i : LaneId} {r : LaneResult} {k w v : Nat} (h : (resultTail r.body)[k]? = some (w, v))
    (hv : v < 256 ^ w) : leField (resultRecord i r) (12 + fieldsWidth ((resultTail r.body).take k)) w = v := by
  have hget : (resultHead i r ++ resultTail r.body)[8 + k]? = some (w, v) := by
    rw [List.getElem?_append_right (Nat.le_add_right 8 k), show (resultHead i r).length = 8 from rfl,
      Nat.add_sub_cancel_left, h]
  have hread := leField_fieldBytes_of_lt hget hv
  rw [← resultRecord_eq, show 8 + k = (resultHead i r).length + k from rfl, List.take_length_add_append, fieldsWidth,
    List.map_append, List.sum_append] at hread
  exact hread

theorem counterField_of_lt {n : Nat} (h : n < 2 ^ 32) : counterField n = n := if_pos h

/-! ### Completion records -/

/-- The fields of a completion record (11.2). -/
def completionFields (r : CompletionRecord) : List (Nat × Nat) :=
  [(1, bitAt r.phase 0), (1, r.kind), (1, r.ring), (1, r.status), (2, r.tag), (1, r.detail), (1, 0), (2, r.word8),
    (2, r.word10), (2, r.consumer), (2, 0)]

theorem completionBytes_eq (r : CompletionRecord) : r.bytes = fieldBytes (completionFields r) := by
  simp [CompletionRecord.bytes, completionFields, fieldBytes]

theorem leField_completion {r : CompletionRecord} {k w v : Nat} (h : (completionFields r)[k]? = some (w, v))
    (hv : v < 256 ^ w) : leField r.bytes (fieldsWidth ((completionFields r).take k)) w = v := by
  rw [completionBytes_eq]
  exact leField_fieldBytes_of_lt h hv

/-! ### The records' bytes, field by field -/

/-- The bytes that every result record has. -/
theorem resultRecord_fields (i : LaneId) (r : LaneResult) :
    let at' := fun off len : Nat => leField (resultRecord i r) off len
    at' 0 1 = i.val ∧ at' 1 1 = r.outcome.code ∧
      at' 2 1 = (match r.nak with | none => 0 | some x => x.code.toNat) ∧
      at' 3 1 = (match r.kind with | none => 0 | some k => k.code.toNat) ∧
      at' 4 4 = (match r.addr with | none => 0 | some a => a.toNat) ∧
      at' 8 1 = (resultFlagByte r).toNat ∧ at' 9 1 = 0 ∧ (r.sample < 65536 → at' 10 2 = r.sample) := by
  intro at'
  refine ⟨?_, ?_, ?_, ?_, ?_, ?_, ?_, ?_⟩
  · exact leField_resultHead (k := 0) (by decide) rfl (i.isLt.trans (by decide))
  · exact leField_resultHead (k := 1) (by decide) rfl r.outcome.code_lt
  · refine (leField_resultHead (k := 2) (by decide) rfl (BitVec.isLt _)).trans ?_
    cases r.nak <;> rfl
  · refine (leField_resultHead (k := 3) (by decide) rfl (BitVec.isLt _)).trans ?_
    cases r.kind <;> rfl
  · have hlt : (r.addr.map BitVec.toNat).getD 0 < 256 ^ 4 := by
      cases r.addr with
      | none => decide
      | some a => exact a.isLt
    refine (leField_resultHead (k := 4) (by decide) rfl hlt).trans ?_
    cases r.addr <;> rfl
  · exact leField_resultHead (k := 5) (by decide) rfl (BitVec.isLt _)
  · exact leField_resultHead (k := 6) (by decide) rfl (by decide)
  · exact fun h => leField_resultHead (k := 7) (by decide) rfl h

theorem resultRecord_counters (i : LaneId) (r : LaneResult) {a b c d : Nat} (h : r.body = .counters a b c d)
    (ha : a < 2 ^ 32) (hb : b < 2 ^ 32) (hc : c < 2 ^ 32) (hd : d < 2 ^ 32) :
    leField (resultRecord i r) 12 4 = a ∧ leField (resultRecord i r) 16 4 = b ∧ leField (resultRecord i r) 20 4 = c ∧
      leField (resultRecord i r) 24 4 = d ∧ leField (resultRecord i r) 28 4 = 0 := by
  have htail : resultTail r.body = [(4, a), (4, b), (4, c), (4, d), (4, 0)] := by
    simp only [h, resultTail, counterField_of_lt ha, counterField_of_lt hb, counterField_of_lt hc, counterField_of_lt hd]
  have hread := fun k v => leField_resultTail (i := i) (r := r) (k := k) (w := 4) (v := v)
  rw [htail] at hread
  exact ⟨hread 0 a rfl ha, hread 1 b rfl hb, hread 2 c rfl hc, hread 3 d rfl hd, hread 4 0 rfl (by decide)⟩

theorem resultRecord_attach (i : LaneId) (r : LaneResult) {d : Identity} {u : Bool} (h : r.body = .attach (some d) u) :
    let at' := fun off len : Nat => leField (resultRecord i r) off len
    at' 12 2 = d.deviceClass.toNat ∧ at' 14 1 = d.loaderVersion.toNat ∧ at' 15 1 = d.level.toNat ∧
      at' 16 4 = d.flashBase.toNat ∧ at' 20 4 = d.flashSize.toNat ∧ at' 24 4 = d.sectorSize.toNat ∧
      at' 28 1 = d.granule.toNat ∧ at' 29 1 = d.maxWrite.toNat ∧ at' 30 1 = d.attempts.toNat ∧
      at' 31 1 = d.rates.toNat := by
  intro at'
  have hread := fun k w v => leField_resultTail (i := i) (r := r) (k := k) (w := w) (v := v)
  rw [h] at hread
  exact ⟨hread 0 2 _ rfl (BitVec.isLt _), hread 1 1 _ rfl (BitVec.isLt _), hread 2 1 _ rfl (BitVec.isLt _),
    hread 3 4 _ rfl (BitVec.isLt _), hread 4 4 _ rfl (BitVec.isLt _), hread 5 4 _ rfl (BitVec.isLt _),
    hread 6 1 _ rfl (BitVec.isLt _), hread 7 1 _ rfl (BitVec.isLt _), hread 8 1 _ rfl (BitVec.isLt _),
    hread 9 1 _ rfl (BitVec.isLt _)⟩

/-- Without an identity record the bytes from 12 on are zeros. -/
theorem resultRecord_noIdentity (i : LaneId) (r : LaneResult) {u : Bool} (h : r.body = .attach none u) {k : Nat}
    (hlow : 12 ≤ k) (hhigh : k < 32) : leField (resultRecord i r) k 1 = 0 := by
  obtain ⟨m, rfl⟩ := Nat.exists_eq_add_of_le hlow
  have hm : m < 20 := by omega
  have htail : resultTail r.body = List.replicate 20 (1, 0) := by rw [h]; rfl
  have hread := leField_resultTail (i := i) (r := r) (k := m) (w := 1) (v := 0)
  rw [htail] at hread
  have hwidth : fieldsWidth ((List.replicate 20 (1, 0)).take m) = m := by
    rw [fieldsWidth, List.take_replicate, List.map_replicate, List.sum_replicate, min_eq_left hm.le]
    exact Nat.mul_one m
  rw [hwidth] at hread
  exact hread (List.getElem?_replicate_of_lt hm) (by decide)

theorem completionRecord_fields (r : CompletionRecord) (hkind : r.kind < 256) (hring : r.ring < 256)
    (hstatus : r.status < 256) (htag : r.tag < 65536) (hdetail : r.detail < 256) (h8 : r.word8 < 65536)
    (h10 : r.word10 < 65536) (hconsumer : r.consumer < 65536) :
    r.bytes.length = 16 ∧ leField r.bytes 0 1 = (if r.phase then 1 else 0) ∧ leField r.bytes 1 1 = r.kind ∧
      leField r.bytes 2 1 = r.ring ∧ leField r.bytes 3 1 = r.status ∧ leField r.bytes 4 2 = r.tag ∧
      leField r.bytes 6 1 = r.detail ∧ leField r.bytes 7 1 = 0 ∧ leField r.bytes 8 2 = r.word8 ∧
      leField r.bytes 10 2 = r.word10 ∧ leField r.bytes 12 2 = r.consumer ∧ leField r.bytes 14 2 = 0 := by
  have hphase : bitAt r.phase 0 < 256 ^ 1 := by cases r.phase <;> decide
  have hread := fun k w v => leField_completion (r := r) (k := k) (w := w) (v := v)
  refine ⟨?_, hread 0 1 _ rfl hphase, hread 1 1 _ rfl hkind, hread 2 1 _ rfl hring, hread 3 1 _ rfl hstatus,
    hread 4 2 _ rfl htag, hread 5 1 _ rfl hdetail, hread 6 1 _ rfl (by decide), hread 7 2 _ rfl h8, hread 8 2 _ rfl h10,
    hread 9 2 _ rfl hconsumer, hread 10 2 _ rfl (by decide)⟩
  rw [completionBytes_eq, length_fieldBytes]
  rfl

/-- A job's completion record (R137). -/
theorem recordOf_job {s : State} {n : SlotId} {k : Job} {f : FinalStatus} (hk : s.slot n = some k)
    (hf : k.final = some f) : recordOf s (.job n) =
      { phase := s.writer.ring.phase, kind := 1, ring := k.ring.val, status := f.status.code
        tag := k.spec.tag.toNat, detail := 0, word8 := f.okMask.toNat, word10 := f.failMask.toNat
        consumer := (s.ring k.ring).consumer } := by
  unfold recordOf
  simp only [hk, hf, Option.getD_some]

/-- Settles O30: the fields of both records at their offsets, and the code tables. -/
theorem writtenRecordsHoldTheirFields : Obligations.WrittenRecordsHoldTheirFields := by
  refine ⟨fun i r => ?_, completionRecord_fields, fun s => ⟨fun n k f => recordOf_job, fun c => rfl, fun i e => rfl⟩,
    rfl, fun c => rfl, rfl, rfl, rfl, rfl, rfl, rfl⟩
  obtain ⟨hlane, houtcome, hnak, hkind, haddr, hflag, hzero, hsample⟩ := resultRecord_fields i r
  exact ⟨length_resultRecord i r, hlane, houtcome, hnak, hkind, haddr, hflag.trans (resultFlagByte_toNat r), hzero, hsample,
    fun a b c d => resultRecord_counters i r, fun d u => resultRecord_attach i r,
    fun u k h => resultRecord_noIdentity i r h⟩

end Sys2Proof.Machine
end

section
/-! JOBS AND LANE QUEUES. What the step in hand sends, and when it sends nothing (R21, R33, R61 to R70, R84). -/

namespace Sys2Proof.Machine

/-! ### Blocks by their keys -/

/-- The block that a key finds carries the key (R77). -/
theorem Pool.block_of_find {p : Pool} {n : SlotId} {segment index : Nat} {b : BlockId}
    (h : p.find n segment index = some b) :
    ∃ x : Block, p.block b = some x ∧ x.slot = n ∧ x.segment = segment ∧ x.index = index := by
  have hb := List.find?_some h
  cases hx : p.blocks[b.val] with
  | none => simp [hx] at hb
  | some x => exact ⟨x, hx, by simpa [hx, and_assoc] using hb⟩

/-- In a sound pool a key finds the block that carries it (R77). -/
theorem Pool.find_of_block {p : Pool} (hp : p.sound) {b : BlockId} {x : Block} (hb : p.block b = some x) :
    p.find x.slot x.segment x.index = some b := by
  cases hf : p.find x.slot x.segment x.index with
  | none =>
    have hno := List.find?_eq_none.mp hf b (List.mem_finRange b)
    have hx : p.blocks[b.val] = some x := hb
    simp [hx] at hno
  | some c =>
    obtain ⟨y, hy, hslot, hsegment, hindex⟩ := Pool.block_of_find hf
    rw [hp.oneKey c b y x hy hb hslot hsegment hindex]

/-! ### When nothing is sent -/

theorem canSend_of_mayRequest {s : State} {i : LaneId} (h : s.mayRequest i) : canSend s i = true := by
  obtain ⟨ho, ht, hs, hr, hd⟩ := h
  exact (canSend_iff s i).mpr ⟨hd, ho, ht, hr, .inl hs⟩

/-- A lane that may start a request sends it (R21). -/
theorem send_of_mayRequest {s : State} {i : LaneId} (h : s.mayRequest i) (k : ReqKind) (p : List Byte) :
    send s i k p = s.setLane i ((s.lane i).withRequest k p) := send_of_canSend (canSend_of_mayRequest h) k p

/-- In device FAULT, with a request outstanding and with a readback write in flight no request starts (R21, R33, R69). -/
theorem canSend_eq_false {s : State} {i : LaneId}
    (h : s.ctl.device = .fault ∨ (s.lane i).outstanding ≠ none ∨ (s.lane i).readback ≠ none) : canSend s i = false := by
  refine Bool.eq_false_iff.mpr fun hc => ?_
  obtain ⟨hdevice, ho, -, hr, -⟩ := (canSend_iff s i).mp hc
  rcases h with h | h | h
  · exact hdevice h
  · exact h ho
  · exact h hr

/-- The lane sends its request or leaves the state as it is (R21). -/
theorem send_cases (s : State) (i : LaneId) (k : ReqKind) (p : List Byte) :
    send s i k p = s ∨ send s i k p = s.setLane i ((s.lane i).withRequest k p) := by
  cases h : canSend s i with
  | true => exact .inr (send_of_canSend h k p)
  | false => exact .inl (if_neg (Bool.eq_false_iff.mp h))

/-! ### The chunk at the cursor -/

section Chunk

variable {s : State} {i : LaneId} {n : SlotId} {g : Segment}

/-- The chunk at the cursor of a READY block is sent (R64). -/
theorem sendChunk_ready {b : BlockId} {x : Block} {data : List Byte}
    (hf : s.pool.find n (s.lane i).segment (s.lane i).block = some b) (hb : s.pool.block b = some x)
    (hx : x.state = .ready data) : sendChunk s i n g = send s i .write
      (beBytes 4 (g.target.toNat + 128 * (s.lane i).block + (s.lane i).offset) ++
        chunkAt (s.lane i).identityOr data (s.lane i).offset) := by
  simp [sendChunk, hf, hb, hx, Config.blockBytes]

/-- The lane sends a WRITE or leaves the state as it is (R64, R84). -/
theorem sendChunk_cases (s : State) (i : LaneId) (n : SlotId) (g : Segment) : sendChunk s i n g = s ∨
    ∃ p : List Byte, sendChunk s i n g = s.setLane i ((s.lane i).withRequest .write p) := by
  unfold sendChunk
  split
  · exact .inl rfl
  split
  · exact .inl rfl
  split
  · exact .inl rfl
  · exact .inl rfl
  · exact (send_cases s i .write _).imp_right fun h => ⟨_, h⟩

/-- With no READY block at the cursor nothing is sent (R84). -/
theorem sendChunk_of_notReady (h : ∀ (b : BlockId) (x : Block) (data : List Byte), s.pool.block b = some x → x.slot = n →
    x.segment = (s.lane i).segment → x.index = (s.lane i).block → x.state ≠ .ready data) : sendChunk s i n g = s := by
  unfold sendChunk
  split
  · rfl
  next b hf =>
  obtain ⟨x, hb, hslot, hsegment, hindex⟩ := Pool.block_of_find hf
  rw [hb]
  dsimp only
  split
  · rfl
  · rfl
  · next data hx => exact absurd hx (h b x data hb hslot hsegment hindex)

/-- A lane that may not start a request sends no chunk (R21, R33, R69). -/
theorem sendChunk_of_not_canSend (h : canSend s i = false) : sendChunk s i n g = s := by
  unfold sendChunk
  split
  · rfl
  split
  · rfl
  split
  · rfl
  · rfl
  · exact if_neg (Bool.eq_false_iff.mp h)

end Chunk

/-- A chunk is max write payload long where the granule divides it (R64). -/
theorem chunkSize_eq {d : Identity} (hmax : d.maxWrite.toNat ≤ 128) (hdiv : d.maxWrite.toNat % d.granule.toNat = 0) :
    chunkSize d = d.maxWrite.toNat := by
  unfold chunkSize
  rw [Config.blockBytes, min_eq_right hmax]
  exact Nat.div_mul_cancel (Nat.dvd_of_mod_eq_zero hdiv)

theorem Lane.identityOr_of_some {l : Lane} {d : Identity} (h : l.identity = some d) : l.identityOr = d := by
  simp [Lane.identityOr, h]

/-! ### What each step in hand does -/

section Proceed

variable {s : State} {i : LaneId} {n : SlotId} {j : Job} (hj : currentJob s i = some (n, j))
include hj

theorem proceed_identify (hst : (s.lane i).step = .attachIdentify ∨ (s.lane i).step = .attachIdentifyAgain) :
    proceed s i = (send s i .identify [], none) := by
  rcases hst with hst | hst
  · simp [proceed, hj, hst]
  · simp [proceed, hj, hst]

theorem proceed_start {e : BitVec 32} (hst : (s.lane i).step = .detachStart) (hp : j.spec.params = .detach e) :
    proceed s i = (send s i .start (beBytes 4 e.toNat), none) := by
  simp [proceed, hj, hst, hp]

theorem proceed_eraseAll (hst : (s.lane i).step = .eraseAll) :
    proceed s i = (send s i .erase (erasePayload (s.lane i).identityOr.flashBase.toNat 0), none) := by
  simp [proceed, hj, hst]

theorem proceed_eraseRegion {k done : Nat} {g : Segment} (hst : (s.lane i).step = .eraseRegion k done)
    (hg : j.list[k]? = some g) : proceed s i =
      (send s i .erase (erasePayload (g.target.toNat + done * (s.lane i).identityOr.sectorSize.toNat)
        (min 255 (regionSectors (s.lane i).identityOr g - done))), none) := by
  simp [proceed, hj, hst, hg, Config.maxSectors]

theorem proceed_programErase {k : Nat} {g : Segment} (hst : (s.lane i).step = .programErase k)
    (hg : j.list[k]? = some g) : proceed s i = (programErase s i n k g, none) := by
  simp [proceed, hj, hst, hg]

theorem proceed_programWrite {k : Nat} {g : Segment} (hst : (s.lane i).step = .programWrite k)
    (hg : j.list[k]? = some g) : proceed s i = (sendChunk s i n g, none) := by
  simp [proceed, hj, hst, hg]

theorem proceed_sum {k : Nat} {g : Segment} (hst : (s.lane i).step = .programVerify k ∨ (s.lane i).step = .verifySum k)
    (hg : j.list[k]? = some g) : proceed s i = (send s i .sum (sumPayload g), none) := by
  rcases hst with hst | hst
  · simp [proceed, hj, hst, hg]
  · simp [proceed, hj, hst, hg]

theorem proceed_read {off len stride : Nat} {target : BitVec 32} {dest : BitVec 64}
    (hst : (s.lane i).step = .readbackRead off) (hp : j.spec.params = .readback target len dest stride) :
    proceed s i = (send s i .read (beBytes 4 (target.toNat + off) ++ beBytes 2 (min 128 (len - off))), none) := by
  simp [proceed, hj, hst, hp, Config.blockBytes]

theorem proceed_protect {level : BitVec 8} (hst : (s.lane i).step = .protect) (hp : j.spec.params = .protect level) :
    proceed s i = (send s i .protect [level], none) := by
  simp [proceed, hj, hst, hp]

end Proceed

/-- CHUNK_SEND in the write step does what the step calls for (R64). -/
theorem exec_chunkSend {s : State} {i : LaneId} {k : Nat} (hst : (s.lane i).step = .programWrite k) :
    exec (.chunkSend i) s = .next (resolveStep i (proceed s i)) := by
  change execChunkSend i s = _
  unfold execChunkSend
  rw [hst]

/-- Settles O49: the block at the cursor is the one that carries its key, and the chunk size is max write payload. -/
theorem chunkSendWritesTheCursorChunk : Obligations.ChunkSendWritesTheCursorChunk := by
  intro s i n rest j k g b x data d hpool hst hq hj hg hb hslot hsegment hindex hd hmax _ hdiv
  have hjob : currentJob s i = some (n, j) := currentJob_of_head hq hj
  have hfind : s.pool.find n (s.lane i).segment (s.lane i).block = some b := by
    rw [← hslot, ← hsegment, ← hindex]
    exact Pool.find_of_block hpool hb
  rw [exec_chunkSend hst]
  refine ⟨fun hx hmay => ?_, fun hno => ?_⟩
  · rw [proceed_programWrite hjob hst hg, resolveStep_none, sendChunk_ready hfind hb hx, send_of_mayRequest hmay,
      Lane.identityOr_of_some hd, chunkAt, chunkSize_eq hmax hdiv]
  · have hblock : (∀ data, x.state ≠ .ready data) → sendChunk s i n g = s := by
      intro hx
      refine sendChunk_of_notReady fun c y data' hc hyslot hysegment hyindex => ?_
      obtain rfl : c = b := hpool.oneKey c b y x hc hb (hyslot.trans hslot.symm) (hysegment.trans hsegment.symm)
        (hyindex.trans hindex.symm)
      obtain rfl : y = x := Option.some.inj (hc.symm.trans hb)
      exact hx data'
    have hcannot : sendChunk s i n g = s := by
      rcases hno with hw | hf | ho | hd | hr
      · exact hblock fun _ => by rw [hw]; exact nofun
      · exact hblock fun _ => by rw [hf]; exact nofun
      · exact sendChunk_of_not_canSend (canSend_eq_false (.inr (.inl (Option.isSome_iff_ne_none.mp ho))))
      · exact sendChunk_of_not_canSend (canSend_eq_false (.inl hd))
      · exact sendChunk_of_not_canSend (canSend_eq_false (.inr (.inr hr)))
    rw [proceed_programWrite hjob hst hg, resolveStep_none, hcannot]

end Sys2Proof.Machine
end

section
/-! JOBS AND LANE QUEUES. The good answer to a working lane's request, and how its job goes on or ends (R25, R56, R65 to
R68). -/

namespace Sys2Proof.Machine

/-! ### The state in which the answer has its effect -/

/-- The state in which a good answer to lane `i`'s request has its effect: the frame is taken, the pin released and the
request ended (R9, R25, R101). -/
def State.acked (s : State) (i : LaneId) : State := (s.frameTaken i).answered i

theorem State.acked_lane (s : State) (i : LaneId) :
    (s.acked i).lane i = { (s.lane i).answered with pinned := none } := by
  rw [State.acked, State.answered_lane, State.frameTaken_lane]
  rfl

theorem State.acked_local (s : State) (i : LaneId) : LaneLocal i s (s.acked i) :=
  (State.frameTaken_local s i).trans (State.answered_local _ i)

/-- What a good answer leaves of the state before its effect. -/
theorem State.acked_frame (s : State) (i : LaneId) : (s.acked i).slots = s.slots ∧ (s.acked i).pool = s.pool ∧
    (s.acked i).writer = s.writer ∧ (s.acked i).supply = s.supply := by
  simp [State.acked, State.answered, State.frameTaken]

/-- Without a pin only the lane changes (R101). -/
theorem State.acked_of_unpinned {s : State} {i : LaneId} (h : (s.lane i).pinned = none) :
    s.acked i = s.setLane i (s.lane i).answered := by
  have hpin : ((s.frameTaken i).lane i).pinned = none := by rw [State.frameTaken_lane]; exact h
  have hrelease : releasePin (s.frameTaken i) i = s.frameTaken i := by unfold releasePin; rw [hpin]
  rw [State.acked, State.answered, hrelease, State.modLane, State.frameTaken_lane, State.frameTaken, State.setLane_setLane]
  rfl

/-- A lane set to what it is. -/
theorem State.setLane_lane_self (s : State) (i : LaneId) : s.setLane i (s.lane i) = s := by
  unfold State.setLane State.lane
  rw [Vector.set_getElem_self]

section Working

variable {s : State} {i : LaneId} {n : SlotId} {j : Job} {q : Request} {chars payload : List Byte}

theorem State.working.engaged (hw : s.working i n j q) : s.engaged i n j q := by
  obtain ⟨ho, hq, hj, hr, -, -, hrx, -⟩ := hw
  exact ⟨ho, hq, hj, hr, hrx⟩

theorem State.working.queue (hw : s.working i n j q) : (s.lane i).queue = [n] := by
  obtain ⟨-, hq, -⟩ := hw
  exact hq

theorem State.working.slot (hw : s.working i n j q) : s.slot n = some j := by
  obtain ⟨-, -, hj, -⟩ := hw
  exact hj

theorem State.working.unsettled (hw : s.working i n j q) : j.results[i.val] = none := by
  obtain ⟨-, -, -, hr, -⟩ := hw
  exact hr

/-- A good answer of the right form to a job with no mark has its usual effect, and the step goes on (R25). -/
theorem State.working.exec_good (hw : s.working i n j q) (hf : s.completes i chars q.seq q.kind.goodCode payload)
    (hgood : goodForm q (s.lane i).rate payload = true) (hk : q.kind ≠ .identify) :
    exec (.frameReceived i chars) s = .next (resolveStep i (afterAnswer (answerEffect (s.acked i) i n j q payload) i n j
      { s.lane i with rx := none } q payload)) := by
  have h := hw.engaged
  obtain ⟨-, -, -, -, ha, hi, -, -⟩ := hw
  rw [h.exec_frameReceived hf, takeFrame_good h.outstanding_taken h.currentJob_taken
    (classify_good (by rw [State.frameTaken_lane]; exact hgood)) hk, goodAnswer_unmarked ha hi, State.frameTaken_lane]
  rfl

theorem State.working.queue_acked (hw : s.working i n j q) : ((s.acked i).lane i).queue = [n] := by
  rw [State.acked_lane]
  exact hw.queue

theorem State.working.slot_acked (hw : s.working i n j q) : (s.acked i).slot n = some j := by
  obtain ⟨hslots, -⟩ := State.acked_frame s i
  exact (State.slot_congr hslots n).trans hw.slot

/-- With the line free and outside device FAULT an answered lane may start its next request (R1, R21, R33). -/
theorem State.working.mayRequest (hw : s.working i n j q) (htx : (s.lane i).tx = .idle) (hd : s.ctl.device ≠ .fault)
    {x : Lane} (ho : x.outstanding = none) (ht : x.tx = (s.lane i).tx.orphaned) (hs : x.state = .ready)
    (hrb : x.readback = (s.lane i).readback) {t : State} (hx : t.lane i = x) (hc : t.ctl = s.ctl) : t.mayRequest i := by
  obtain ⟨-, -, -, -, -, -, -, hr⟩ := hw
  refine ⟨hx ▸ ho, ?_, hx ▸ hs, ?_, hc ▸ hd⟩
  · rw [hx, ht, htx]; rfl
  · rw [hx, hrb, hr]

end Working

/-- A verdict on the lane's only job ends it (R56). -/
theorem resolveStep_endsOnlyJob {s u : State} {i : LaneId} {n : SlotId} {j : Job} (hl : LaneLocal i s u)
    (hq : (u.lane i).queue = [n]) (hj : u.slot n = some j) (hr : j.results[i.val] = none) (v : Verdict) :
    EndsOnlyJob s (resolveStep i (u, some v)) i n (u.lane i) ((u.lane i).result j.spec.params true v) := by
  rw [resolveStep_onlyJob hq hj]
  exact endsOnlyJob_closeJob hl hq hj hr _

/-! ### A lane whose request goes out stays where it is in its job -/

/-- Lane `l` stands in its job where lane `m` stands: at the same cursor, with the same accumulator, count and queue. -/
structure Lane.SameCursor (l m : Lane) : Prop where
  segment : l.segment = m.segment
  block : l.block = m.block
  offset : l.offset = m.offset
  crc : l.crc = m.crc
  bytes : l.bytes = m.bytes
  queue : l.queue = m.queue

theorem Lane.SameCursor.rfl' (l : Lane) : l.SameCursor l := ⟨rfl, rfl, rfl, rfl, rfl, rfl⟩

/-- The write step changes the lane alone, and the lane stands where it stood in its job (R64). -/
theorem sendChunk_setLane (s : State) (i : LaneId) (n : SlotId) (g : Segment) :
    ∃ l : Lane, sendChunk s i n g = s.setLane i l ∧ l.SameCursor (s.lane i) ∧ l.step = (s.lane i).step := by
  rcases sendChunk_cases s i n g with h | ⟨p, h⟩
  · exact ⟨s.lane i, by rw [h, State.setLane_lane_self], .rfl' _, rfl⟩
  · exact ⟨_, h, ⟨rfl, rfl, rfl, rfl, rfl, rfl⟩, rfl⟩

/-! ### Steps taken in hand -/

section EnterStep

variable {s : State} {i : LaneId} {n : SlotId} {j : Job}

theorem currentJob_setStep (hq : (s.lane i).queue = [n]) (hj : s.slot n = some j) (st : Step) :
    currentJob (s.modLane i (fun l => { l with step := st })) i = some (n, j) :=
  currentJob_of_head (rest := []) (by rw [State.lane_modLane_self]; exact hq) hj

theorem enterStep_programWrite {k : Nat} {g : Segment} (hq : (s.lane i).queue = [n]) (hj : s.slot n = some j)
    (hg : j.list[k]? = some g) :
    enterStep s i (.programWrite k) = (sendChunk (s.modLane i (fun l => { l with step := .programWrite k })) i n g, none) :=
  proceed_programWrite (currentJob_setStep hq hj _) (by rw [State.lane_modLane_self]) hg

theorem enterStep_programErase {k : Nat} {g : Segment} (hq : (s.lane i).queue = [n]) (hj : s.slot n = some j)
    (hg : j.list[k]? = some g) : enterStep s i (.programErase k) =
      (programErase (s.modLane i (fun l => { l with step := .programErase k })) i n k g, none) :=
  proceed_programErase (currentJob_setStep hq hj _) (by rw [State.lane_modLane_self]) hg

/-- A step that sends a SUM sends it at once where the lane may (R66, R67). -/
theorem enterStep_sum {st : Step} {k : Nat} {g : Segment} (hst : st = .programVerify k ∨ st = .verifySum k)
    (hq : (s.lane i).queue = [n]) (hj : s.slot n = some j) (hg : j.list[k]? = some g)
    (hmay : (s.modLane i (fun l => { l with step := st })).mayRequest i) : enterStep s i st =
      (s.setLane i (Lane.withRequest { s.lane i with step := st } .sum (sumPayload g)), none) := by
  unfold enterStep
  rw [proceed_sum (currentJob_setStep hq hj _) (by rw [State.lane_modLane_self]; exact hst) hg, send_of_mayRequest hmay,
    State.lane_modLane_self, State.modLane, State.setLane_setLane]

end EnterStep

/-! ### SUM values -/

/-- A SUM's four bytes are compared as a number (R10, R66, R67). -/
theorem sumValue_eq_iff {payload : List Byte} (h : payload.length = 4) (c : BitVec 32) :
    BitVec.ofNat 32 (beNat payload) = c ↔ beNat payload = c.toNat := by
  have hlt : beNat payload < 2 ^ 32 := by
    have := beNat_lt payload
    rw [h] at this
    exact this
  rw [← BitVec.toNat_inj, BitVec.toNat_ofNat, Nat.mod_eq_of_lt hlt]

end Sys2Proof.Machine
end

section
/-! JOBS AND LANE QUEUES. The answers that carry data or check it: WRITE within a block, SUM of a VERIFY, READ (R20, R65,
R67, R68). -/

namespace Sys2Proof.Machine

section Answers

variable {s : State} {i : LaneId} {n : SlotId} {j : Job} {q : Request} {chars payload : List Byte}

/-! ### A WRITE within a block -/

/-- The lane once a WRITE's chunk has been taken by the target within its block (R65). -/
def Lane.fedWithin (l : Lane) (chunk : List Byte) : Lane :=
  { l with offset := l.offset + chunk.length, crc := crc32Feed l.crc chunk, bytes := l.bytes + chunk.length }

/-- Within the block the chunk is fed and counted, and only the offset advances (R65). -/
theorem writeAcked_within {u : State} {g : Segment} {chunk : List Byte}
    (h : (u.lane i).offset + chunk.length < g.validBytes (u.lane i).block) :
    writeAcked u i n g chunk = u.setLane i ((u.lane i).fedWithin chunk) := by
  unfold writeAcked
  dsimp only
  rw [if_pos h, State.modLane, Lane.advanceCursor, if_pos h]
  rfl

/-- The ACK to a WRITE within a block leads to the next chunk of the block, or waits for it (R64, R65). -/
theorem State.working.exec_writeWithin (hw : s.working i n j q) {k : Nat} {g : Segment} {chunk : List Byte}
    (hf : s.completes i chars q.seq 0x81 []) (hk : q.kind = .write) (hst : (s.lane i).step = .programWrite k)
    (hg : j.list[k]? = some g) (hchunk : chunk = q.payload.drop 4)
    (hin : (s.lane i).offset + chunk.length < g.validBytes (s.lane i).block) :
    exec (.frameReceived i chars) s = .next (sendChunk ((s.acked i).setLane i (((s.acked i).lane i).fedWithin chunk)) i n g) := by
  have hgood : goodForm q (s.lane i).rate [] = true := by rw [goodForm_iff, hk]
  have hcode : (0x81 : Byte) = q.kind.goodCode := by rw [hk]; rfl
  have hlane := State.acked_lane s i
  have hstep : ((s.acked i).lane i).step = .programWrite k := by rw [hlane]; exact hst
  have hblock : ((s.acked i).lane i).block = (s.lane i).block := by rw [hlane]; rfl
  have hsegment : ((s.acked i).lane i).segment = (s.lane i).segment := by rw [hlane]; rfl
  have heffect : answerEffect (s.acked i) i n j q [] =
      (s.acked i).setLane i (((s.acked i).lane i).fedWithin chunk) := by
    rw [hchunk] at hin ⊢
    rw [← writeAcked_within (n := n) (g := g) (by rw [hlane]; exact hin)]
    simp only [answerEffect, hstep, hg]
  generalize hu : (s.acked i).setLane i (((s.acked i).lane i).fedWithin chunk) = u at heffect
  have hlaneU : u.lane i = ((s.acked i).lane i).fedWithin chunk := by rw [← hu, State.lane_setLane_self]
  have hafter : afterAnswer u i n j { s.lane i with rx := none } q [] = enterStep u i (.programWrite k) := by
    have h1 : (u.lane i).segment = (s.lane i).segment := by rw [hlaneU]; exact hsegment
    have h2 : (u.lane i).block = (s.lane i).block := by rw [hlaneU]; exact hblock
    simp [afterAnswer, hst, hg, h1, h2]
  have hqueue : (u.lane i).queue = [n] := by rw [hlaneU]; exact hw.queue_acked
  have hslot : u.slot n = some j := by rw [← hu]; exact hw.slot_acked
  have hset : u.modLane i (fun l => { l with step := .programWrite k }) = u := by
    have hstepU : (u.lane i).step = .programWrite k := by rw [hlaneU]; exact hstep
    rw [State.modLane, ← hstepU]
    exact State.setLane_lane_self u i
  rw [hcode] at hf
  rw [hw.exec_good hf hgood (by rw [hk]; exact nofun), heffect, hafter, enterStep_programWrite hqueue hslot hg, hset,
    resolveStep_none]

/-! ### A VERIFY's SUM -/

/-- The ACK to a VERIFY's SUM leads on from the state in which it has been taken (R67). -/
theorem State.working.exec_verifySum (hw : s.working i n j q) {k : Nat} {g : Segment}
    (hf : s.completes i chars q.seq 0x81 payload) (hk : q.kind = .sum) (hlen : payload.length = 4)
    (hst : (s.lane i).step = .verifySum k) (hg : j.list[k]? = some g) :
    exec (.frameReceived i chars) s = .next (resolveStep i (if beNat payload = g.crc.toNat then
      if k + 1 < j.list.length then enterStep (s.acked i) i (.verifySum (k + 1))
      else (s.acked i, some (Verdict.plain .ok))
    else (s.acked i, some (mismatchVerdict g)))) := by
  have hgood : goodForm q (s.lane i).rate payload = true := by rw [goodForm_iff, hk]; exact hlen
  have hcode : (0x81 : Byte) = q.kind.goodCode := by rw [hk]; rfl
  have hstep : ((s.acked i).lane i).step = .verifySum k := by rw [State.acked_lane]; exact hst
  rw [hcode] at hf
  rw [hw.exec_good hf hgood (by rw [hk]; exact nofun)]
  simp [answerEffect, hstep, afterAnswer, hst, hg, sumValue_eq_iff hlen]

/-! ### A READ's data -/

/-- A lane's place in host memory goes by the lanes of the set below it (R68). -/
theorem ordinal_eq_length (m : BitVec 16) (i : LaneId) :
    ordinal m i = (allLanes.filter (fun k => inSet m k && k.val < i.val)).length := by
  rw [ordinal, lanesOf, List.countP_eq_length_filter, List.filter_filter]
  congr 1
  exact List.filter_congr fun k _ => Bool.and_comm _ _

/-- Settles O50: the three answers, each by the step that the lane has in hand. -/
theorem dataAnswersTakeEffect : Obligations.DataAnswersTakeEffect := by
  refine ⟨?_, fun s i n j q chars payload hw => ⟨?_, ?_⟩⟩
  · intro s i n j q k g chars chunk hw hf hk hst hg hchunk hin
    obtain ⟨l, hsend, hcursor, -⟩ := sendChunk_setLane ((s.acked i).setLane i (((s.acked i).lane i).fedWithin chunk)) i n g
    rw [State.lane_setLane_self, State.acked_lane] at hcursor
    obtain ⟨hslots, hpool, hwriter, hsupply⟩ := State.acked_frame s i
    obtain ⟨hctl, -, hothers⟩ := State.acked_local s i
    refine ⟨_, hw.exec_writeWithin hf hk hst hg hchunk hin, ?_⟩
    rw [hsend, State.setLane_setLane, State.lane_setLane_self]
    refine ⟨hcursor.crc, hcursor.bytes, hcursor.offset, hcursor.block, hcursor.segment, hcursor.queue.trans hw.queue, hpool,
      hslots, hctl, hwriter, hsupply, fun m hm => ?_⟩
    rw [State.lane_setLane_ne _ hm, hothers m hm]
  · intro k g hf hk hlen hst hg
    have hexec := hw.exec_verifySum hf hk hlen hst hg
    have hends := resolveStep_endsOnlyJob (State.acked_local s i) hw.queue_acked hw.slot_acked hw.unsettled
    refine ⟨fun hne => ?_, fun g2 heq hg2 hpin htx hd => ?_, fun heq hlast => ?_⟩
    · rw [if_neg hne] at hexec
      have hend := hends (mismatchVerdict g)
      refine ⟨_, _, hexec, hend.result, rfl, rfl, rfl, ?_⟩
      rw [hend.lane, State.acked_lane]
      exact ⟨rfl, rfl, rfl⟩
    · obtain ⟨hk2, -⟩ := List.getElem?_eq_some_iff.mp hg2
      have hmay : ((s.acked i).modLane i (fun l => { l with step := .verifySum (k + 1) })).mayRequest i :=
        hw.mayRequest htx hd (x := { (s.lane i).answered with pinned := none, step := .verifySum (k + 1) }) rfl rfl rfl rfl
          (by rw [State.lane_modLane_self, State.acked_lane]) (State.acked_local s i).1
      rw [hexec, if_pos heq, if_pos hk2, enterStep_sum (.inr rfl) hw.queue_acked hw.slot_acked hg2 hmay, resolveStep_none,
        State.acked_of_unpinned hpin, State.lane_setLane_self, State.setLane_setLane]
      rfl
    · rw [if_pos heq, if_neg (by omega)] at hexec
      have hend := hends (Verdict.plain .ok)
      refine ⟨_, hexec, ?_, ?_⟩
      · rw [outcomeOf_eq_resultOf, hend.result]
        rfl
      · rw [hend.lane, State.acked_lane]
        exact ⟨rfl, rfl, rfl⟩
  · intro off len stride target dest hf hk hlen hst hp hpin
    have hgood : goodForm q (s.lane i).rate payload = true := by rw [goodForm_iff, hk]; exact hlen
    have hcode : (0x82 : Byte) = q.kind.goodCode := by rw [hk]; rfl
    rw [hcode] at hf
    rw [hw.exec_good hf hgood (by rw [hk]; exact nofun), State.acked_of_unpinned hpin]
    simp [answerEffect, afterAnswer, hst, readbackAddr, hp, ordinal_eq_length, State.modLane, State.setLane_setLane,
      Lane.answered]

end Answers

end Sys2Proof.Machine
end

section
/-! JOBS AND LANE QUEUES. The ACK to an ERASE: the next sectors, the next region, the write step, or OK (R61, R63, R107). -/

namespace Sys2Proof.Machine

section Erases

variable {s : State} {i : LaneId} {n : SlotId} {j : Job} {q : Request} {chars : List Byte} {level : Byte} {d : Identity}

/-- Lane `l`, with the identity record `d`, once the ACK to an ERASE has ended its request and stored the level that it
carries (R25, R107). -/
def Lane.erased (l : Lane) (d : Identity) (level : Byte) : Lane :=
  { l.answered with identity := some { d with level := level } }

/-- The ACK to a region's ERASE leads on from the state in which its level is stored (R61, R107). -/
theorem State.working.exec_eraseRegion (hw : s.working i n j q) (hf : s.completes i chars q.seq 0x81 [level])
    (hlevel : level.toNat ≤ 2) (hk : q.kind = .erase) (hd : (s.lane i).identity = some d)
    (hpin : (s.lane i).pinned = none) {k done : Nat} {g : Segment} (hst : (s.lane i).step = .eraseRegion k done)
    (hg : j.list[k]? = some g) {u : State} (hu : u = s.setLane i ((s.lane i).erased d level)) :
    exec (.frameReceived i chars) s = .next (resolveStep i (
      if done + beField q.payload 4 1 < g.length / d.sectorSize.toNat then
        enterStep u i (.eraseRegion k (done + beField q.payload 4 1))
      else if k + 1 < j.list.length then enterStep u i (.eraseRegion (k + 1) 0)
      else (u, some (Verdict.plain .ok)))) := by
  have hgood : goodForm q (s.lane i).rate [level] = true := by rw [goodForm_iff, hk]; exact ⟨rfl, hlevel⟩
  have hcode : (0x81 : Byte) = q.kind.goodCode := by rw [hk]; rfl
  have heffect : answerEffect (s.acked i) i n j q [level] = u := by
    rw [State.acked_of_unpinned hpin, hu]
    simp [answerEffect, Lane.answered, hst, State.modLane, Lane.setLevel, hd, Lane.erased, State.setLane_setLane]
  have hidentity : (u.lane i).identityOr = { d with level := level } :=
    Lane.identityOr_of_some (by rw [hu, State.lane_setLane_self]; rfl)
  rw [hcode] at hf
  rw [hw.exec_good hf hgood (by rw [hk]; exact nofun), heffect]
  simp only [afterAnswer, hst, hg, hidentity, eraseSpan, regionSectors]

/-- The ACK to an ERASE of a segment's erase step leads on from the state in which its level and the erased-through
address are stored (R63, R107). -/
theorem State.working.exec_programErase (hw : s.working i n j q) (hf : s.completes i chars q.seq 0x81 [level])
    (hlevel : level.toNat ≤ 2) (hk : q.kind = .erase) (hd : (s.lane i).identity = some d)
    (hpin : (s.lane i).pinned = none) {k : Nat} (hst : (s.lane i).step = .programErase k) :
    exec (.frameReceived i chars) s = .next (resolveStep i (enterStep (s.setLane i
      { (s.lane i).erased d level with
        erasedThrough := beField q.payload 0 4 + beField q.payload 4 1 * d.sectorSize.toNat }) i (.programErase k))) := by
  have hgood : goodForm q (s.lane i).rate [level] = true := by rw [goodForm_iff, hk]; exact ⟨rfl, hlevel⟩
  have hcode : (0x81 : Byte) = q.kind.goodCode := by rw [hk]; rfl
  have hidentity : (s.lane i).answered.identityOr = d := Lane.identityOr_of_some hd
  have heffect : answerEffect (s.acked i) i n j q [level] = s.setLane i
      { (s.lane i).erased d level with
        erasedThrough := beField q.payload 0 4 + beField q.payload 4 1 * d.sectorSize.toNat } := by
    rw [State.acked_of_unpinned hpin]
    have hstep : (s.lane i).answered.step = .programErase k := hst
    have hid : (s.lane i).answered.identity = some d := hd
    simp [answerEffect, hstep, State.modLane, Lane.setLevel, hid, hidentity, Lane.erased, State.setLane_setLane, eraseSpan]
  rw [hcode] at hf
  rw [hw.exec_good hf hgood (by rw [hk]; exact nofun), heffect]
  simp only [afterAnswer, hst]

/-! ### The next ERASE -/

/-- A region's ERASE goes out at once where the lane may send (R61). -/
theorem enterStep_eraseRegion {k done : Nat} {g : Segment} (hq : (s.lane i).queue = [n]) (hj : s.slot n = some j)
    (hg : j.list[k]? = some g) (hd : (s.lane i).identity = some d)
    (hmay : (s.modLane i (fun l => { l with step := .eraseRegion k done })).mayRequest i) :
    enterStep s i (.eraseRegion k done) = (s.setLane i (Lane.withRequest { s.lane i with step := .eraseRegion k done } .erase
      (beBytes 4 (g.target.toNat + done * d.sectorSize.toNat) ++
        [BitVec.ofNat 8 (min 255 (g.length / d.sectorSize.toNat - done))])), none) := by
  have hidentity : ((s.modLane i (fun l => { l with step := .eraseRegion k done })).lane i).identityOr = d :=
    Lane.identityOr_of_some (by rw [State.lane_modLane_self]; exact hd)
  unfold enterStep
  rw [proceed_eraseRegion (currentJob_setStep hq hj _) (by rw [State.lane_modLane_self]) hg, send_of_mayRequest hmay,
    hidentity, State.lane_modLane_self, State.modLane, State.setLane_setLane, erasePayload, regionSectors]

/-- With covering sectors left at or above the erased-through address the next ERASE goes out where the lane may send
(R63). -/
theorem programErase_sends {k : Nat} {g : Segment} {low count : Nat} (hd : (s.lane i).identity = some d)
    (hcover : coveringSectors d (s.lane i).erasedThrough g = (low, count)) (hcount : count ≠ 0) (hmay : s.mayRequest i) :
    programErase s i n k g = s.setLane i ((s.lane i).withRequest .erase
      (beBytes 4 (d.flashBase.toNat + low * d.sectorSize.toNat) ++ [BitVec.ofNat 8 (min 255 count)])) := by
  unfold programErase
  rw [Lane.identityOr_of_some hd]
  dsimp only
  rw [hcover]
  dsimp only
  rw [if_neg hcount, send_of_mayRequest hmay]
  rfl

/-- With no covering sector left the write step begins (R63). -/
theorem programErase_done {k : Nat} {g : Segment} {low : Nat} (hd : (s.lane i).identity = some d)
    (hcover : coveringSectors d (s.lane i).erasedThrough g = (low, 0)) :
    programErase s i n k g = sendChunk (s.modLane i (fun l => { l with step := .programWrite k })) i n g := by
  unfold programErase
  rw [Lane.identityOr_of_some hd]
  dsimp only
  rw [hcover]
  dsimp only
  rw [if_pos rfl]

/-- Settles O51: regions and covering sectors, from the state in which the ACK's level is stored. -/
theorem erasesGoOnToTheEnd : Obligations.ErasesGoOnToTheEnd := by
  intro s i n j q chars level d k g hw hf hlevel hk hd hpin hg size base asked l sends
  have hl : l = (s.lane i).erased d level := rfl
  obtain ⟨u, hu⟩ : ∃ u : State, u = s.setLane i l := ⟨_, rfl⟩
  have hlane : u.lane i = l := by rw [hu, State.lane_setLane_self]
  have hqueue : (u.lane i).queue = [n] := by rw [hlane]; exact hw.queue
  have hslot : u.slot n = some j := by rw [hu]; exact hw.slot
  refine ⟨fun done hst => ?_, fun hst _ => ?_⟩
  · have hexec := hw.exec_eraseRegion hf hlevel hk hd hpin hst hg (hl ▸ hu)
    have hsends : ∀ (k' done' : Nat) (g' : Segment), j.list[k']? = some g' → (s.lane i).tx = .idle → s.ctl.device ≠ .fault →
        enterStep u i (.eraseRegion k' done') = (s.setLane i (Lane.withRequest { l with step := .eraseRegion k' done' } .erase
          (beBytes 4 (g'.target.toNat + done' * size) ++ [BitVec.ofNat 8 (min 255 (g'.length / size - done'))])), none) := by
      intro k' done' g' hg' htx hdev
      have hmay : (u.modLane i (fun l => { l with step := .eraseRegion k' done' })).mayRequest i :=
        hw.mayRequest htx hdev (x := { l with step := .eraseRegion k' done' }) rfl rfl rfl rfl
          (by rw [State.lane_modLane_self, hlane]) (by rw [hu]; rfl)
      have hidentity : (u.lane i).identity = some { d with level := level } := by rw [hlane]
      rw [enterStep_eraseRegion hqueue hslot hg' hidentity hmay, hlane, hu, State.setLane_setLane]
    refine ⟨fun hlt htx hdev => ?_, fun g2 hle hg2 htx hdev => ?_, fun hle hlast => ?_⟩
    · rw [hexec, if_pos hlt, hsends k _ g hg htx hdev, resolveStep_none]
    · obtain ⟨hk2, -⟩ := List.getElem?_eq_some_iff.mp hg2
      rw [hexec, if_neg (Nat.not_lt.mpr hle), if_pos hk2, hsends (k + 1) 0 g2 hg2 htx hdev, resolveStep_none, Nat.zero_mul]
      rfl
    · rw [if_neg (Nat.not_lt.mpr hle), if_neg (by omega)] at hexec
      have hlocal : LaneLocal i s u := by rw [hu]; exact modLane_local s i fun _ => l
      have hend := resolveStep_endsOnlyJob hlocal hqueue hslot hw.unsettled (Verdict.plain .ok)
      rw [hlane] at hend
      refine ⟨_, hexec, ?_, hend.lane, hend.ctl, hend.others⟩
      rw [outcomeOf_eq_resultOf, hend.result]
      rfl
  · intro through low last
    have hexec := hw.exec_programErase hf hlevel hk hd hpin hst
    obtain ⟨v, hv⟩ : ∃ v : State, v = s.setLane i { l with step := .programErase k, erasedThrough := through } := ⟨_, rfl⟩
    have hvlane : v.lane i = { l with step := .programErase k, erasedThrough := through } := by
      rw [hv, State.lane_setLane_self]
    have hcover : coveringSectors { d with level := level } (v.lane i).erasedThrough g = (low, last + 1 - low) := by
      rw [hvlane]
      rfl
    have hvd : (v.lane i).identity = some { d with level := level } := by rw [hvlane]
    have hprogram : exec (.frameReceived i chars) s = .next (programErase v i n k g) := by
      rw [hexec, enterStep_programErase (n := n) (by rw [State.lane_setLane_self]; exact hw.queue)
        (show (s.setLane i _).slot n = some j from hw.slot) hg, resolveStep_none, State.modLane, State.setLane_setLane,
        State.lane_setLane_self, hv]
      rfl
    refine ⟨fun hle htx hdev => ?_, fun hlt hno => ?_⟩
    · have hmay : v.mayRequest i := hw.mayRequest htx hdev
        (x := { l with step := .programErase k, erasedThrough := through }) rfl rfl rfl rfl hvlane (by rw [hv]; rfl)
      rw [hprogram, programErase_sends hvd hcover (by omega) hmay, hvlane, hv, State.setLane_setLane]
    · rw [show last + 1 - low = 0 by omega] at hcover
      have hwrite : v.modLane i (fun l => { l with step := .programWrite k }) =
          s.setLane i { l with step := .programWrite k, erasedThrough := through } := by
        rw [State.modLane, hvlane, hv, State.setLane_setLane]
      rw [hprogram, programErase_done hvd hcover, hwrite, sendChunk_of_notReady]
      intro b y data hb hyslot hysegment hyindex
      rw [State.lane_setLane_self] at hysegment hyindex
      exact hno b y data hb hyslot hysegment hyindex

end Erases

end Sys2Proof.Machine
end

section
/-! JOBS AND LANE QUEUES. The end of a block and of a segment of a PROGRAM (R62, R65, R66, R81, R85, R86). -/

namespace Sys2Proof.Machine

/-! ### The block is left -/

/-- In a sound pool a lane leaves a READY block that it references: the block is freed when no lane is left on it, and no
read of it is queued (R85, R86). -/
theorem Pool.leave_ready {p : Pool} (hp : p.sound) {b : BlockId} {x : Block} {data : List Byte} {i : LaneId}
    (hb : p.block b = some x) (hx : x.state = .ready data) (hi : inSet x.refs i = true) : Pool.leave i p b =
      if x.refs &&& ~~~ laneBit i = 0 then
        { p with blocks := p.blocks.set b.val none, freeList := p.freeList ++ [b] }
      else { p with blocks := p.blocks.set b.val (some { x with refs := x.refs &&& ~~~ laneBit i }) } := by
  have hqueue : p.fetchQueue.filter (· != b) = p.fetchQueue := by
    refine List.filter_eq_self.mpr fun c hc => bne_iff_ne.mpr ?_
    rintro rfl
    obtain ⟨y, hy, hwaiting⟩ := (hp.queuedIff c).mp hc
    obtain rfl : y = x := Option.some.inj (hy.symm.trans hb)
    rw [hx] at hwaiting
    cases hwaiting
  have hstate : (x.state != .inFlight) = true := by rw [hx]; rfl
  unfold Pool.leave
  rw [hb]
  dsimp only
  rw [if_pos hi, hstate, Bool.and_true, Pool.free, hqueue]
  exact if_congr decide_eq_true_iff rfl rfl

/-! ### Where the next segment begins -/

section Segments

variable {w : State} {i : LaneId} {n : SlotId} {j : Job} {k : Nat} {g : Segment}

/-- A request that goes out, or waits, changes the lane alone, and the lane stands where it stood in its job (R21). -/
theorem send_setLane (w : State) (i : LaneId) (k : ReqKind) (p : List Byte) :
    ∃ l : Lane, send w i k p = w.setLane i l ∧ l.SameCursor (w.lane i) ∧ l.step = (w.lane i).step := by
  rcases send_cases w i k p with h | h
  · exact ⟨w.lane i, by rw [h, State.setLane_lane_self], .rfl' _, rfl⟩
  · exact ⟨_, h, ⟨rfl, rfl, rfl, rfl, rfl, rfl⟩, rfl⟩

/-- The erase step changes the lane alone: it stays in hand or gives way to the write step, and the lane stands where it
stood in its job (R63). -/
theorem programErase_setLane (w : State) (i : LaneId) (n : SlotId) (k : Nat) (g : Segment) :
    ∃ l : Lane, programErase w i n k g = w.setLane i l ∧ l.SameCursor (w.lane i) ∧
      (l.step = .programWrite k ∨ l.step = (w.lane i).step) := by
  unfold programErase
  dsimp only
  split
  · obtain ⟨l, hl, hcursor, hstep⟩ := sendChunk_setLane (w.modLane i (fun l => { l with step := .programWrite k })) i n g
    rw [State.lane_modLane_self] at hcursor hstep
    refine ⟨l, by rw [hl, State.modLane, State.setLane_setLane], ?_, .inl hstep⟩
    exact ⟨hcursor.segment, hcursor.block, hcursor.offset, hcursor.crc, hcursor.bytes, hcursor.queue⟩
  · exact (send_setLane w i .erase _).imp fun l ⟨hl, hcursor, hstep⟩ => ⟨hl, hcursor, .inr hstep⟩

/-- The first step of a PROGRAM's segment: the erase step, with ERASE_BEFORE, or the write step (R62, R63). -/
theorem enterStep_segmentStep (hq : (w.lane i).queue = [n]) (hj : w.slot n = some j) (hg : j.list[k]? = some g) :
    ∃ l : Lane, enterStep w i (segmentStep j.spec k) = (w.setLane i l, none) ∧ l.SameCursor (w.lane i) ∧
      (l.step = .programWrite k ∨ (j.spec.flags.getLsbD 3 = true ∧ l.step = .programErase k)) ∧
      (j.spec.flags.getLsbD 3 = false → l.step = .programWrite k) := by
  cases herase : j.spec.eraseBefore with
  | true =>
    obtain ⟨l, hl, hcursor, hstep⟩ := programErase_setLane (w.modLane i (fun l => { l with step := .programErase k })) i n k g
    rw [State.lane_modLane_self] at hcursor hstep
    refine ⟨l, ?_, ⟨hcursor.segment, hcursor.block, hcursor.offset, hcursor.crc, hcursor.bytes, hcursor.queue⟩,
      hstep.imp_right fun h => ⟨herase, h⟩, fun h => absurd (h.symm.trans herase) Bool.false_ne_true⟩
    rw [segmentStep, if_pos herase, enterStep_programErase hq hj hg, hl, State.modLane, State.setLane_setLane]
  | false =>
    obtain ⟨l, hl, hcursor, hstep⟩ := sendChunk_setLane (w.modLane i (fun l => { l with step := .programWrite k })) i n g
    rw [State.lane_modLane_self] at hcursor hstep
    refine ⟨l, ?_, ⟨hcursor.segment, hcursor.block, hcursor.offset, hcursor.crc, hcursor.bytes, hcursor.queue⟩,
      .inl hstep, fun _ => hstep⟩
    rw [segmentStep, if_neg (Bool.eq_false_iff.mp herase), enterStep_programWrite hq hj hg, hl, State.modLane,
      State.setLane_setLane]

/-- A segment with one after it: the next begins with a fresh accumulator (R62). -/
theorem nextSegment_begins (hq : (w.lane i).queue = [n]) (hj : w.slot n = some j) (hlt : k + 1 < j.list.length) :
    ∃ l : Lane, nextSegment w i j k = (w.setLane i l, none) ∧ l.SameCursor { w.lane i with crc := 0xFFFFFFFF } ∧
      (l.step = .programWrite (k + 1) ∨ (j.spec.flags.getLsbD 3 = true ∧ l.step = .programErase (k + 1))) ∧
      (j.spec.flags.getLsbD 3 = false → l.step = .programWrite (k + 1)) := by
  have hget : j.list[k + 1]? = some j.list[k + 1] := List.getElem?_eq_getElem hlt
  obtain ⟨l, hl, hcursor, hstep, hplain⟩ := enterStep_segmentStep
    (w := w.modLane i (fun l => { l with crc := crc32Init })) (by rw [State.lane_modLane_self]; exact hq) hj hget
  rw [State.lane_modLane_self] at hcursor
  refine ⟨l, ?_, hcursor, hstep, hplain⟩
  unfold nextSegment
  dsimp only
  rw [if_pos hlt, hl, State.modLane, State.setLane_setLane]

/-- After the last segment the outcome is OK (R62). -/
theorem nextSegment_last (hlast : ¬ k + 1 < j.list.length) :
    nextSegment w i j k = (w.modLane i (fun l => { l with crc := crc32Init }), some (Verdict.plain .ok)) := if_neg hlast

/-- A segment's CRC is other than the one stated with HAS_CRC (R66). -/
theorem segmentWritten_differs (h : g.hasCrc = true ∧ ~~~ (w.lane i).crc ≠ g.crc) :
    segmentWritten w i j k g = (w, some { Verdict.plain .imageCheck with addr := some g.target }) := by
  simp [segmentWritten, crc32Final, h]

/-- A segment's image check passes: the verify step, or the next segment (R66). -/
theorem segmentWritten_passes (h : ¬ (g.hasCrc = true ∧ ~~~ (w.lane i).crc ≠ g.crc)) : segmentWritten w i j k g =
    if j.spec.flags.getLsbD 4 = true then enterStep w i (.programVerify k) else nextSegment w i j k := by
  have hcheck : (g.hasCrc && crc32Final (w.lane i).crc != g.crc) = false := by
    rw [Bool.eq_false_iff, Ne, Bool.and_eq_true, bne_iff_ne]
    exact h
  unfold segmentWritten
  rw [hcheck]
  rfl

end Segments

/-! ### The end of a block -/

/-- Lane `l` once the chunk that uses its block up has been taken by the target: the bytes are fed and counted, and the
cursor advances (R65). -/
def Lane.fedPast (l : Lane) (g : Segment) (chunk : List Byte) : Lane :=
  { l.answered.advanceCursor g chunk.length with
    crc := crc32Feed l.crc chunk, bytes := l.bytes + chunk.length }

/-- A chunk that uses up a block of a segment that has another: the cursor stands at the next block (R65). -/
theorem Lane.fedPast_nextBlock {l : Lane} {g : Segment} {chunk : List Byte}
    (hend : ¬ l.offset + chunk.length < g.validBytes l.block) (hmore : l.block + 1 < g.blocks) : l.fedPast g chunk =
      { l.answered with
        offset := 0, block := l.block + 1, crc := crc32Feed l.crc chunk, bytes := l.bytes + chunk.length } := by
  unfold Lane.fedPast Lane.advanceCursor
  rw [if_neg (c := l.answered.offset + chunk.length < g.validBytes l.answered.block) hend,
    if_pos (c := l.answered.block + 1 < g.blocks) hmore]
  rfl

/-- A chunk that uses up a segment's last block: the cursor stands at block 0 of the next segment (R65). -/
theorem Lane.fedPast_nextSegment {l : Lane} {g : Segment} {chunk : List Byte}
    (hend : ¬ l.offset + chunk.length < g.validBytes l.block) (hlast : ¬ l.block + 1 < g.blocks) : l.fedPast g chunk =
      { l.answered with
        offset := 0, block := 0, segment := l.segment + 1, crc := crc32Feed l.crc chunk
        bytes := l.bytes + chunk.length } := by
  unfold Lane.fedPast Lane.advanceCursor
  rw [if_neg (c := l.answered.offset + chunk.length < g.validBytes l.answered.block) hend,
    if_neg (c := l.answered.block + 1 < g.blocks) hlast]
  rfl

section Working

variable {s w : State} {i : LaneId} {n : SlotId} {j : Job} {q : Request} {chars : List Byte} {k : Nat} {g : Segment}

/-- The effect of the ACK to a block's last chunk (R65, R85). -/
theorem writeAcked_past {b : BlockId} {chunk : List Byte}
    (hfind : s.pool.find n (s.lane i).segment (s.lane i).block = some b)
    (hend : ¬ (s.lane i).offset + chunk.length < g.validBytes (s.lane i).block) :
    writeAcked (s.setLane i (s.lane i).answered) i n g chunk =
      (s.setPool (Pool.leave i s.pool b)).setLane i ((s.lane i).fedPast g chunk) := by
  have hlane : (s.setLane i (s.lane i).answered).lane i = (s.lane i).answered := State.lane_setLane_self s i _
  unfold writeAcked consumeBlock
  dsimp only
  rw [hlane, if_neg (c := (s.lane i).answered.offset + chunk.length < g.validBytes (s.lane i).answered.block) hend,
    State.modLane, hlane, State.setLane_setLane, State.setLane_pool,
    show s.pool.find n (s.lane i).answered.segment (s.lane i).answered.block = some b from hfind]
  rfl

/-- The ACK to a block's last chunk leads on from the state in which the block is consumed and the window filled (R65, R66,
R85). -/
theorem State.working.exec_blockEnd (hw : s.working i n j q) (hpin : (s.lane i).pinned = none)
    (hg : j.list[k]? = some g) (hf : s.completes i chars q.seq 0x81 []) (hk : q.kind = .write)
    (hst : (s.lane i).step = .programWrite k) (hsegment : (s.lane i).segment = k) {b : BlockId}
    (hfind : s.pool.find n (s.lane i).segment (s.lane i).block = some b)
    (hend : ¬ (s.lane i).offset + (q.payload.drop 4).length < g.validBytes (s.lane i).block) {y : Lane}
    (hy : y = (s.lane i).fedPast g (q.payload.drop 4)) (hmoved : ¬ (y.segment = k ∧ y.block = (s.lane i).block))
    (hw' : w = (s.setPool ((Pool.leave i s.pool b).fill n j.list i (y.segment, y.block))).setLane i y) :
    exec (.frameReceived i chars) s = .next (resolveStep i
      (if y.segment = k then enterStep w i (.programWrite k) else segmentWritten w i j k g)) := by
  have hgood : goodForm q (s.lane i).rate [] = true := by rw [goodForm_iff, hk]
  have hcode : (0x81 : Byte) = q.kind.goodCode := by rw [hk]; rfl
  obtain ⟨v, hv⟩ : ∃ v : State, v = (s.setPool (Pool.leave i s.pool b)).setLane i y := ⟨_, rfl⟩
  have hvlane : v.lane i = y := by rw [hv, State.lane_setLane_self]
  have heffect : answerEffect (s.acked i) i n j q [] = v := by
    have hstep : ((s.setLane i (s.lane i).answered).lane i).step = .programWrite k := by
      rw [State.lane_setLane_self]; exact hst
    rw [State.acked_of_unpinned hpin, hv, hy, ← writeAcked_past hfind hend]
    simp only [answerEffect, hstep, hg]
  have hfill : fillWindow v i n j = w := by
    rw [hw', fillWindow, hvlane, hv]
    rfl
  have hmoved' : (decide (y.segment = k) && decide (y.block = (s.lane i).block)) = false := by simpa using hmoved
  rw [hcode] at hf
  rw [hw.exec_good hf hgood (by rw [hk]; exact nofun), heffect]
  simp only [afterAnswer, hst, hg, hvlane, hsegment, hmoved', Bool.false_eq_true, if_false, hfill]

/-- The ACK to the SUM of the verify step leads on from the state in which it has been taken (R66). -/
theorem State.working.exec_programVerify (hw : s.working i n j q) {payload : List Byte} (hg : j.list[k]? = some g)
    (hf : s.completes i chars q.seq 0x81 payload) (hlen : payload.length = 4) (hk : q.kind = .sum)
    (hst : (s.lane i).step = .programVerify k) : exec (.frameReceived i chars) s = .next (resolveStep i
      (if beNat payload = (~~~ (s.lane i).crc).toNat then nextSegment (s.acked i) i j k
        else (s.acked i, some (mismatchVerdict g)))) := by
  have hgood : goodForm q (s.lane i).rate payload = true := by rw [goodForm_iff, hk]; exact hlen
  have hcode : (0x81 : Byte) = q.kind.goodCode := by rw [hk]; rfl
  have hstep : ((s.acked i).lane i).step = .programVerify k := by rw [State.acked_lane]; exact hst
  have hcrc : ((s.acked i).lane i).crc = (s.lane i).crc := by rw [State.acked_lane]; rfl
  rw [hcode] at hf
  rw [hw.exec_good hf hgood (by rw [hk]; exact nofun)]
  simp [answerEffect, hstep, afterAnswer, hst, hg, hcrc, crc32Final, sumValue_eq_iff hlen]

/-- A verdict reached in a state in which the lane stands READY ends the job and leaves the lane in its session (R56). -/
theorem ends_in_session {v : Verdict} (hexec : exec (.frameReceived i chars) s = .next (resolveStep i (w, some v)))
    (hlocal : LaneLocal i s w) (hq : (w.lane i).queue = [n]) (hj : w.slot n = some j) (hr : j.results[i.val] = none)
    (hs : (w.lane i).state = .ready) (hid : (w.lane i).identity = (s.lane i).identity)
    (ho : (w.lane i).outstanding = none) (hnak : v.nak = none) :
    ∃ (t : State) (x : LaneResult), exec (.frameReceived i chars) s = .next t ∧
      t.resultOf n i = some x ∧ x.outcome = v.outcome ∧ x.nak = none ∧ x.kind = v.kind ∧ x.addr = v.addr ∧
      (t.lane i).state = .ready ∧ (t.lane i).identity = (s.lane i).identity ∧ (t.lane i).queue = [] ∧
      (t.lane i).outstanding = none ∧ t.ctl = s.ctl ∧ ∀ m : LaneId, m ≠ i → t.lane m = s.lane m := by
  have hend := resolveStep_endsOnlyJob hlocal hq hj hr v
  refine ⟨_, _, hexec, hend.result, rfl, hnak, rfl, rfl, ?_⟩
  rw [hend.lane]
  exact ⟨hs, hid, rfl, ho, hend.ctl, hend.others⟩

/-- The next segment begins from a state in which the lane's cursor stands at its block 0 (R62). -/
theorem begins_next_segment (hexec : exec (.frameReceived i chars) s = .next (resolveStep i (nextSegment w i j k)))
    (hlocal : LaneLocal i s w) (hslots : w.slots = s.slots) (hq : (w.lane i).queue = [n]) (hj : w.slot n = some j)
    (hsegment : (w.lane i).segment = k + 1) (hblock : (w.lane i).block = 0) (hoffset : (w.lane i).offset = 0)
    (hlt : k + 1 < j.list.length) :
    ∃ t : State, exec (.frameReceived i chars) s = .next t ∧ t.pool = w.pool ∧
      t.slots = s.slots ∧ t.ctl = s.ctl ∧ (t.lane i).crc = 0xFFFFFFFF ∧ (t.lane i).segment = k + 1 ∧
      (t.lane i).block = 0 ∧ (t.lane i).offset = 0 ∧ (t.lane i).queue = [n] ∧
      ((t.lane i).step = .programWrite (k + 1) ∨ (j.spec.flags.getLsbD 3 = true ∧ (t.lane i).step = .programErase (k + 1))) ∧
      (j.spec.flags.getLsbD 3 = false → (t.lane i).step = .programWrite (k + 1)) ∧
      ∀ m : LaneId, m ≠ i → t.lane m = s.lane m := by
  obtain ⟨l, hl, hcursor, hstep, hplain⟩ := nextSegment_begins hq hj hlt
  obtain ⟨hctl, -, hothers⟩ := hlocal
  rw [hl, resolveStep_none] at hexec
  refine ⟨_, hexec, rfl, hslots, hctl, ?_⟩
  rw [State.lane_setLane_self]
  refine ⟨hcursor.crc, hcursor.segment.trans hsegment, hcursor.block.trans hblock, hcursor.offset.trans hoffset,
    hcursor.queue.trans hq, hstep, hplain, fun m hm => ?_⟩
  rw [State.lane_setLane_ne _ hm, hothers m hm]

/-- The write step goes on at the lane's cursor with a filled window (R62, R85). -/
theorem writes_on {p : Pool} {y : Lane} (hw' : w = (s.setPool p).setLane i y)
    (hexec : exec (.frameReceived i chars) s = .next (resolveStep i (enterStep w i (.programWrite k))))
    (hq : y.queue = [n]) (hj : s.slot n = some j) (hg : j.list[k]? = some g) :
    ∃ t : State, exec (.frameReceived i chars) s = .next t ∧ (t.lane i).SameCursor y ∧
      (t.lane i).step = .programWrite k ∧ t.pool = p ∧ t.slots = s.slots ∧ t.ctl = s.ctl ∧
      ∀ m : LaneId, m ≠ i → t.lane m = s.lane m := by
  have hlane : w.lane i = y := by rw [hw', State.lane_setLane_self]
  rw [enterStep_programWrite (n := n) (j := j) (by rw [hlane]; exact hq) (by rw [hw']; exact hj) hg, resolveStep_none]
    at hexec
  obtain ⟨z, hz, hcursor, hstep⟩ := sendChunk_setLane (w.modLane i (fun l => { l with step := .programWrite k })) i n g
  rw [State.lane_modLane_self, hlane] at hcursor hstep
  refine ⟨_, hexec, ?_⟩
  rw [hz, State.lane_setLane_self]
  refine ⟨⟨hcursor.segment, hcursor.block, hcursor.offset, hcursor.crc, hcursor.bytes, hcursor.queue⟩, hstep,
    by rw [hw']; rfl, by rw [hw']; rfl, by rw [hw']; rfl, fun m hm => ?_⟩
  rw [State.lane_setLane_ne _ hm, State.lane_modLane_ne _ hm, hw', State.lane_setLane_ne _ hm]
  rfl

/-! ### The obligation -/

/-- Settles O52: the block's end by whether the segment has another block, and the segment's end by R66. -/
theorem blocksAreConsumedAndSegmentsEnd : Obligations.BlocksAreConsumedAndSegmentsEnd := by
  intro s i n j q chars k g hw hpin hg l ends begins
  have hr : j.results[i.val] = none := hw.unsettled
  have hq : (s.lane i).queue = [n] := hw.queue
  have hj : s.slot n = some j := hw.slot
  refine ⟨?_, ?_⟩
  · intro chunk b x data hf hk hst hsegment hchunk hpool hb hslot hxsegment hxindex hx hi _ hend fed refs left filled differs
    subst hchunk
    have hend' : ¬ l.offset + (q.payload.drop 4).length < g.validBytes l.block := Nat.not_lt.mpr hend
    have hfind : s.pool.find n l.segment l.block = some b := by
      rw [hsegment, ← hslot, ← hxsegment, ← hxindex]
      exact Pool.find_of_block hpool hb
    have hleft : Pool.leave i s.pool b = left := Pool.leave_ready hpool hb hx hi
    have hexec : ∀ (y : Lane), y = l.fedPast g (q.payload.drop 4) → ¬ (y.segment = k ∧ y.block = l.block) →
        exec (.frameReceived i chars) s = .next (resolveStep i
          (if y.segment = k then enterStep ((s.setPool (filled (y.segment, y.block))).setLane i y) i (.programWrite k)
            else segmentWritten ((s.setPool (filled (y.segment, y.block))).setLane i y) i j k g)) := by
      intro y hy hmoved
      exact hw.exec_blockEnd hpin hg hf hk hst hsegment hfind hend' hy hmoved (by rw [hleft]; rfl)
    refine ⟨fun hmore => ?_, fun hlastBlock => ?_⟩
    · obtain ⟨y, hy⟩ : ∃ y : Lane, y = { l.answered with
          offset := 0, block := l.block + 1, crc := fed, bytes := l.bytes + (q.payload.drop 4).length } := ⟨_, rfl⟩
      have hysegment : y.segment = k := by rw [hy]; exact hsegment
      have hyblock : y.block = l.block + 1 := by rw [hy]
      have hwrite := hexec y (hy.trans (Lane.fedPast_nextBlock hend' hmore).symm) (by rw [hyblock]; omega)
      rw [if_pos hysegment, hysegment, hyblock] at hwrite
      obtain ⟨t, ht, hcursor, hstep, hpool', hslots, hctl, hothers⟩ := writes_on rfl hwrite (by rw [hy]; exact hq) hj hg
      rw [hy] at hcursor
      exact ⟨t, ht, hcursor.crc, hcursor.bytes, hcursor.segment.trans hsegment, hcursor.block, hcursor.offset, hstep,
        hcursor.queue.trans hq, hpool', hslots, hctl, hothers⟩
    · have hlast' : ¬ l.block + 1 < g.blocks := Nat.not_lt.mpr hlastBlock.ge
      obtain ⟨y, hy⟩ : ∃ y : Lane, y = { l.answered with
          offset := 0, block := 0, segment := k + 1, crc := fed, bytes := l.bytes + (q.payload.drop 4).length } := ⟨_, rfl⟩
      have hypast : y = l.fedPast g (q.payload.drop 4) := by
        rw [hy, Lane.fedPast_nextSegment hend' hlast', hsegment]
      have hysegment : y.segment = k + 1 := by rw [hy]
      have hyblock : y.block = 0 := by rw [hy]
      obtain ⟨w, hwdef⟩ : ∃ w : State, w = (s.setPool (filled (k + 1, 0))).setLane i y := ⟨_, rfl⟩
      have hwlane : w.lane i = y := by rw [hwdef, State.lane_setLane_self]
      have hwqueue : (w.lane i).queue = [n] := by rw [hwlane, hy]; exact hq
      have hwslot : w.slot n = some j := by rw [hwdef]; exact hj
      have hwlocal : LaneLocal i s w := by
        rw [hwdef]
        exact (setPool_local s i _).trans (modLane_local _ i fun _ => y)
      have hwcrc : (w.lane i).crc = fed := by rw [hwlane, hy]
      have hwritten := hexec y hypast (by rw [hysegment]; omega)
      rw [if_neg (by rw [hysegment]; omega), hysegment, hyblock, ← hwdef] at hwritten
      refine ⟨fun hdiff => ?_, fun hsame hverify htx hdev => ?_, fun hsame hplain hlt => ?_, fun hsame hplain hlast => ?_⟩
      · rw [segmentWritten_differs (by rw [hwcrc]; exact hdiff)] at hwritten
        exact ends_in_session hwritten hwlocal hwqueue hwslot hr (by rw [hwlane, hy]; rfl) (by rw [hwlane, hy]; rfl)
          (by rw [hwlane, hy]; rfl) rfl
      · have hmay : (w.modLane i (fun l => { l with step := .programVerify k })).mayRequest i :=
          hw.mayRequest htx hdev (x := { y with step := .programVerify k }) (by rw [hy]; rfl) (by rw [hy]; rfl)
            (by rw [hy]; rfl) (by rw [hy]; rfl) (by rw [State.lane_modLane_self, hwlane]) (by rw [hwdef]; rfl)
        rw [hwritten, segmentWritten_passes (by rw [hwcrc]; exact hsame), if_pos hverify,
          enterStep_sum (.inl rfl) hwqueue hwslot hg hmay, resolveStep_none, hwlane, hwdef, State.setLane_setLane, hy]
        rfl
      · rw [segmentWritten_passes (by rw [hwcrc]; exact hsame), if_neg (Bool.eq_false_iff.mp hplain)] at hwritten
        have hbegin := begins_next_segment hwritten hwlocal (by rw [hwdef]; rfl) hwqueue hwslot (by rw [hwlane, hysegment])
          (by rw [hwlane, hyblock]) (by rw [hwlane, hy]) hlt
        rw [show w.pool = filled (k + 1, 0) by rw [hwdef]; rfl] at hbegin
        exact hbegin
      · rw [segmentWritten_passes (by rw [hwcrc]; exact hsame), if_neg (Bool.eq_false_iff.mp hplain),
          nextSegment_last (by omega)] at hwritten
        exact ends_in_session hwritten (hwlocal.trans (modLane_local w i _)) (by rw [State.lane_modLane_self]; exact hwqueue)
          hwslot hr (by rw [State.lane_modLane_self, hwlane, hy]; rfl) (by rw [State.lane_modLane_self, hwlane, hy]; rfl)
          (by rw [State.lane_modLane_self, hwlane, hy]; rfl) rfl
  · intro payload hf hlen hk hst hsegment hblock hoffset
    have hexec := hw.exec_programVerify hg hf hlen hk hst
    have hlane := State.acked_lane s i
    obtain ⟨hslots, hpool, -, -⟩ := State.acked_frame s i
    refine ⟨fun hne => ?_, fun heq hlt => ?_, fun heq hlast => ?_⟩
    · rw [if_neg hne] at hexec
      exact ends_in_session hexec (State.acked_local s i) hw.queue_acked hw.slot_acked hr (by rw [hlane]; rfl)
        (by rw [hlane]; rfl) (by rw [hlane]; rfl) rfl
    · rw [if_pos heq] at hexec
      have hbegin := begins_next_segment hexec (State.acked_local s i) hslots hw.queue_acked hw.slot_acked
        (by rw [hlane]; exact hsegment) (by rw [hlane]; exact hblock) (by rw [hlane]; exact hoffset) hlt
      rw [hpool] at hbegin
      exact hbegin
    · rw [if_pos heq, nextSegment_last (by omega)] at hexec
      exact ends_in_session hexec ((State.acked_local s i).trans (modLane_local _ i _))
        (by rw [State.lane_modLane_self]; exact hw.queue_acked) hw.slot_acked hr
        (by rw [State.lane_modLane_self, hlane]; rfl) (by rw [State.lane_modLane_self, hlane]; rfl)
        (by rw [State.lane_modLane_self, hlane]; rfl) rfl

end Working

end Sys2Proof.Machine
end

section
/-! JOBS AND LANE QUEUES. The end of a readback host write: the current job's, and one that an ended job has left in flight
(R33, R58, R68, R69). -/

namespace Sys2Proof.Machine

/-- In device FAULT the step in hand sends nothing, but for the erase step, which may give way to the write step (R33,
R63, R106). -/
theorem proceed_of_fault {s : State} {i : LaneId} (hd : s.ctl.device = .fault)
    (hne : ∀ k : Nat, (s.lane i).step ≠ .programErase k) : proceed s i = (s, none) := by
  have hsend : ∀ (k : ReqKind) (p : List Byte), send s i k p = s := send_of_fault hd
  have hchunk : ∀ (n : SlotId) (g : Segment), sendChunk s i n g = s :=
    fun _ _ => sendChunk_of_not_canSend (canSend_eq_false (.inl hd))
  have hcredential : ∀ sel : Selector, credentialStep s i sel = (s, none) := fun _ => if_pos hd
  unfold proceed
  simp only [hsend, hchunk, hcredential]
  cases currentJob s i with
  | none => rfl
  | some x =>
    cases hst : (s.lane i).step with
    | programErase k => exact absurd hst (hne k)
    | none | attachPhase | attachRateGap | readbackWrite | attachIdentify | attachIdentifyAgain | eraseAll => rfl
    | attachSetRate | attachCredential | detachStart | protect | readbackRead | eraseRegion | programWrite | programVerify
    | verifySum =>
      dsimp only
      split <;> rfl

section Live

variable {s : State} {i : LaneId} {n : SlotId} {j : Job} {off len stride : Nat} {target : BitVec 32} {dest : BitVec 64}
  {o : HostWriteOut}

/-- The current job's write has ended good (R68). -/
theorem exec_liveWriteEnd_good (hst : (s.lane i).step = .readbackWrite off) (hrb : (s.lane i).readback = some o)
    (hjob : currentJob s i = some (n, j)) :
    exec (.readbackWriteEnd .live i .good) s = .next (resolveStep i (readbackWritten s i j off)) := by
  change execReadbackWriteEnd .live i .good s = _
  unfold execReadbackWriteEnd
  rw [hst, hrb, hjob]

/-- The current job's write has failed (R69). -/
theorem exec_liveWriteEnd_failed (hst : (s.lane i).step = .readbackWrite off) (hrb : (s.lane i).readback = some o)
    (hjob : currentJob s i = some (n, j)) : exec (.readbackWriteEnd .live i .failed) s =
      .next (resolveStep i (s.setLane i { s.lane i with readback := none }, some (hostWriteVerdict j.spec off))) := by
  change execReadbackWriteEnd .live i .failed s = _
  unfold execReadbackWriteEnd
  rw [hst, hrb, hjob]
  rfl

/-- With bytes left the READ of the next ones is the step in hand (R68). -/
theorem readbackWritten_goesOn (hp : j.spec.params = .readback target len dest stride) (hlt : off + 128 < len) :
    readbackWritten s i j off =
      proceed (s.setLane i { s.lane i with readback := none, step := .readbackRead (off + 128) }) i := by
  unfold readbackWritten
  rw [hp]
  dsimp only
  rw [Config.blockBytes, if_pos hlt, enterStep, State.modLane, State.modLane, State.lane_setLane_self, State.setLane_setLane]

/-- After the last payload the outcome is OK (R68). -/
theorem readbackWritten_last (hp : j.spec.params = .readback target len dest stride) (hle : len ≤ off + 128) :
    readbackWritten s i j off =
      (s.setLane i { s.lane i with readback := none }, some (Verdict.plain .ok)) := by
  unfold readbackWritten
  rw [hp]
  dsimp only
  rw [Config.blockBytes, if_neg (Nat.not_lt.mpr hle)]
  rfl

end Live

section Abandoned

variable {s : State} {i : LaneId} {o : HostWriteOut} (hrb : (s.lane i).readback = some o)
  (hst : ∀ off : Nat, (s.lane i).step ≠ .readbackWrite off)

include hst in
/-- Where the current job has no write in flight the end of one is not taken (R69). -/
theorem exec_liveWriteEnd_other (w : HostWrite) : exec (.readbackWriteEnd .live i w) s = .next s := by
  change execReadbackWriteEnd .live i w s = _
  unfold execReadbackWriteEnd
  dsimp only
  split
  · next off _ _ _ hoff _ _ => exact absurd hoff (hst off)
  · rfl

include hrb hst

/-- The write that an ended job has left in flight ends (R69). -/
theorem exec_abandonedWriteEnd (w : HostWrite) :
    exec (.readbackWriteEnd .abandoned i w) s = .next (endedWriteOut s i) := by
  have hleft : (s.lane i).writeLeft = true := by
    unfold Lane.writeLeft
    rw [hrb]
    split
    · next off hoff => exact absurd hoff (hst off)
    · rfl
  change execReadbackWriteEnd .abandoned i w s = _
  unfold execReadbackWriteEnd
  dsimp only
  rw [if_pos hleft]

/-- On a lane that is READY or in TRAINING the step in hand goes on (R69). -/
theorem exec_abandonedWriteEnd_open (hs : (s.lane i).state = .ready ∨ (s.lane i).state = .training) (w : HostWrite) :
    exec (.readbackWriteEnd .abandoned i w) s =
      .next (resolveStep i (proceed (s.setLane i { s.lane i with readback := none }) i)) := by
  rw [exec_abandonedWriteEnd hrb hst, endedWriteOut]
  dsimp only
  rw [if_pos hs]
  rfl

/-- Where the step in hand calls for nothing only the write is gone (R33, R69). -/
theorem exec_abandonedWriteEnd_idle
    (h : (s.lane i).step = .none ∨ (s.lane i).queue = [] ∨ ((s.lane i).state ≠ .ready ∧ (s.lane i).state ≠ .training) ∨
      (s.ctl.device = .fault ∧ ∀ k : Nat, (s.lane i).step ≠ .programErase k)) (w : HostWrite) :
    exec (.readbackWriteEnd .abandoned i w) s = .next (s.setLane i { s.lane i with readback := none }) := by
  obtain ⟨u, hu⟩ : ∃ u : State, u = s.setLane i { s.lane i with readback := none } := ⟨_, rfl⟩
  have hlane : u.lane i = { s.lane i with readback := none } := by rw [hu, State.lane_setLane_self]
  by_cases hs : (s.lane i).state = .ready ∨ (s.lane i).state = .training
  · have hidle : proceed u i = (u, none) := by
      rcases h with h | h | ⟨hr, ht⟩ | ⟨hd, hne⟩
      · exact proceed_of_step_none (by rw [hlane]; exact h)
      · have hqueue : (u.lane i).queue = [] := by rw [hlane]; exact h
        simp [proceed, currentJob, hqueue]
      · exact absurd hs (not_or.mpr ⟨hr, ht⟩)
      · exact proceed_of_fault (by rw [hu]; exact hd) (by rw [hlane]; exact hne)
    rw [exec_abandonedWriteEnd_open hrb hst hs, ← hu, hidle, resolveStep_none]
  · rw [exec_abandonedWriteEnd hrb hst, endedWriteOut]
    dsimp only
    rw [if_neg hs]
    rfl

end Abandoned

/-- Settles O53: the current job's write by what is left to read, and an ended job's by the step that has waited for it. -/
theorem readbackWriteEndGoesOn : Obligations.ReadbackWriteEndGoesOn := by
  refine ⟨?_, ?_⟩
  · intro s i n j off len stride target dest o hst hrb hq hj hr hp written
    have hjob : currentJob s i = some (n, j) := currentJob_of_head hq hj
    have hgood := exec_liveWriteEnd_good hst hrb hjob
    have hfailed := exec_liveWriteEnd_failed hst hrb hjob
    have hends := resolveStep_endsOnlyJob (modLane_local s i fun l => { l with readback := none })
      (by rw [State.lane_modLane_self]; exact hq) hj hr
    have hread : off + 128 < len → exec (.readbackWriteEnd .live i .good) s = .next (send (s.setLane i written) i .read
          (beBytes 4 (target.toNat + (off + 128)) ++ beBytes 2 (min 128 (len - (off + 128))))) := by
      intro hlt
      have hproceed := proceed_read (s := s.setLane i written) (currentJob_of_head (rest := [])
        (by rw [State.lane_setLane_self]; exact hq) hj) (by rw [State.lane_setLane_self]) hp
      rw [hgood, readbackWritten_goesOn hp hlt, hproceed, resolveStep_none]
    refine ⟨fun hlt hmay => ?_, fun hlt hd => ?_, fun hle => ?_, ?_⟩
    · rw [hread hlt, send_of_mayRequest hmay, State.lane_setLane_self, State.setLane_setLane]
    · rw [hread hlt, send_of_fault (s := s.setLane i written) hd]
    · rw [readbackWritten_last hp hle] at hgood
      have hend := hends (Verdict.plain .ok)
      rw [State.lane_modLane_self] at hend
      refine ⟨_, hgood, ?_, hend.lane, hend.ctl, hend.others⟩
      rw [outcomeOf_eq_resultOf]
      exact congrArg (Option.map LaneResult.outcome) hend.result
    · have hend := hends (hostWriteVerdict j.spec off)
      have hverdict : hostWriteVerdict j.spec off =
          { outcome := .hostWrite, nak := none, kind := some .read, addr := some (target + BitVec.ofNat 32 off) } := by
        unfold hostWriteVerdict
        rw [hp]
      rw [State.lane_modLane_self, hverdict] at hend
      rw [hverdict] at hfailed
      exact ⟨_, _, hfailed, hend.result, rfl, rfl, rfl, hend.lane, hend.ctl, hend.others⟩
  · intro s i w o hrb hst l
    refine ⟨exec_liveWriteEnd_other hst w, fun h => exec_abandonedWriteEnd_idle hrb hst h w, ?_⟩
    intro n rest j hq hj sends
    obtain ⟨u, hu⟩ : ∃ u : State, u = s.setLane i l := ⟨_, rfl⟩
    have hlane : u.lane i = l := by rw [hu, State.lane_setLane_self]
    have hjob : currentJob u i = some (n, j) := currentJob_of_head (rest := rest) (by rw [hlane]; exact hq) (by rw [hu]; exact hj)
    have hstep : (u.lane i).step = (s.lane i).step := by rw [hlane]
    have hgoes : (s.lane i).state = .ready ∨ (s.lane i).state = .training →
        exec (.readbackWriteEnd .abandoned i w) s = .next (resolveStep i (proceed u i)) := by
      intro hs
      rw [exec_abandonedWriteEnd_open hrb hst hs, hu]
    have hsends : (s.lane i).state = .ready ∨ (s.lane i).state = .training → canSend u i = true →
        ∀ (kind : ReqKind) (payload : List Byte), proceed u i = (send u i kind payload, none) → sends kind payload := by
      intro hs hcan kind payload hproceed
      change exec (.readbackWriteEnd .abandoned i w) s = _
      rw [hgoes hs, hproceed, resolveStep_none, send_of_canSend hcan, hlane, hu, State.setLane_setLane]
    refine ⟨fun hs hst' ho htx hd => ?_, fun hmay => ?_⟩
    · have hcan : canSend u i = true :=
        (canSend_iff u i).mpr ⟨by rw [hu]; exact hd, by rw [hlane]; exact ho, by rw [hlane]; exact htx, by rw [hlane],
          .inr (by rw [hlane]; exact hs)⟩
      exact hsends (.inr hs) hcan _ _ (proceed_identify hjob (.inl (hstep.trans hst')))
    · rw [← hu] at hmay
      have hready : (s.lane i).state = .ready := by
        obtain ⟨-, -, h, -⟩ := hmay
        rw [hlane] at h
        exact h
      have hsend := hsends (.inl hready) (canSend_of_mayRequest hmay)
      refine ⟨fun h => hsend _ _ (proceed_identify hjob (.inr (hstep.trans h))),
        fun e h hp => hsend _ _ (proceed_start hjob (hstep.trans h) hp),
        fun level h hp => hsend _ _ (proceed_protect hjob (hstep.trans h) hp),
        fun d h hd => ?_,
        fun k g h hg => hsend _ _ (proceed_sum hjob (.inr (hstep.trans h)) hg),
        fun off len stride target dest h hp => hsend _ _ (proceed_read hjob (hstep.trans h) hp),
        fun k h => ?_⟩
      · have hproceed := proceed_eraseAll hjob (hstep.trans h)
        rw [Lane.identityOr_of_some (d := d) (by rw [hlane]; exact hd)] at hproceed
        exact hsend _ _ hproceed
      · rw [hgoes (.inl hready), ← hu, exec_chunkSend (hstep.trans h)]

end Sys2Proof.Machine
end

section
/-! THE STAGING POOL. What each operation of the pool does to its blocks, its free list and its fetch queue, and that it
keeps the pool sound (R77, R78, R80, R82, R83, R86, R95). -/

namespace Sys2Proof.Machine

namespace Pool

/-! ### Blocks -/

/-- Block `a` once block `b` holds `x`. -/
theorem block_setBlock (p : Pool) (b a : BlockId) (x : Option Block) :
    (p.setBlock b x).block a = if b = a then x else p.block a := by
  simp only [block, setBlock, Vector.getElem_set, Fin.val_inj]

@[simp] theorem block_setBlock_self (p : Pool) (b : BlockId) (x : Option Block) : (p.setBlock b x).block b = x := by
  rw [block_setBlock, if_pos rfl]

theorem block_setBlock_ne (p : Pool) {a b : BlockId} (h : a ≠ b) (x : Option Block) :
    (p.setBlock b x).block a = p.block a := by
  rw [block_setBlock, if_neg h.symm]

/-- A freed block holds nothing, and no other block changes (R78). -/
theorem block_free (p : Pool) (b a : BlockId) : (p.free b).block a = if b = a then none else p.block a :=
  block_setBlock p b a none

/-- No block carries the key (R80). -/
theorem find_eq_none {p : Pool} {n : SlotId} {g b : Nat} : p.find n g b = none ↔
    ∀ (a : BlockId) (k : Block), p.block a = some k → ¬ (k.slot = n ∧ k.segment = g ∧ k.index = b) := by
  unfold find block
  rw [List.find?_eq_none]
  refine ⟨fun h a k hk => ?_, fun h a _ => ?_⟩
  · have ha := h a (List.mem_finRange a)
    simpa [hk, and_assoc] using ha
  · split
    · next k hk => simpa [and_assoc] using h a k hk
    · simp

/-! ### Reads in flight -/

/-- A read of block `b` is in flight (R82). -/
def reading (p : Pool) (b : BlockId) : Bool :=
  match p.block b with
  | some k => k.state == .inFlight
  | none => false

theorem inFlight_eq (p : Pool) : p.inFlight = allBlocks.countP p.reading := rfl

theorem reading_of_some {p : Pool} {b : BlockId} {k : Block} (h : p.block b = some k) :
    p.reading b = (k.state == .inFlight) := by
  simp [reading, h]

theorem reading_of_none {p : Pool} {b : BlockId} (h : p.block b = none) : p.reading b = false := by
  simp [reading, h]

/-- The reads in flight once block `b` holds `x`: its own share changes, and no other's. -/
theorem inFlight_setBlock (p : Pool) (b : BlockId) (x : Option Block) :
    (p.setBlock b x).inFlight + (p.reading b).toNat = p.inFlight + ((p.setBlock b x).reading b).toNat := by
  rw [inFlight_eq, inFlight_eq]
  refine countP_add_toNat allBlocks (List.nodup_finRange 128) (List.mem_finRange b) fun a ha => ?_
  unfold reading
  rw [block_setBlock_ne p ha]

/-- A block whose read is not in flight adds none to the reads in flight. -/
theorem inFlight_setBlock_le {p : Pool} {b : BlockId} {x : Option Block}
    (h : (p.setBlock b x).reading b = true → p.reading b = true) : (p.setBlock b x).inFlight ≤ p.inFlight := by
  have hcount := inFlight_setBlock p b x
  have hle := Bool.toNat_le_toNat (Bool.le_iff_imp.mpr h)
  omega

/-! ### The pool stays sound -/

section Sound

variable {p : Pool} (hp : p.sound)
include hp

/-- A block in use is not free, and a free one is not queued. -/
theorem sound.not_queued {b : BlockId} (hb : p.block b = none) : b ∉ p.fetchQueue := by
  rw [hp.queuedIff, hb]
  rintro ⟨k, hk, -⟩
  cases hk

/-- A block that keeps its key comes to hold `y`, and stands in the fetch queue `q` if its read waits (R77, R82). -/
theorem sound.replace {b : BlockId} {x y : Block} (hb : p.block b = some x)
    (hkey : y.slot = x.slot ∧ y.segment = x.segment ∧ y.index = x.index) (href : y.refs ≠ 0 ∨ y.state = .inFlight)
    {q : List BlockId} (hq : q.Nodup) (hmem : ∀ a, a ∈ q ↔ if b = a then y.state = .waiting else a ∈ p.fetchQueue)
    (hread : (p.setBlock b (some y)).inFlight + p.stale ≤ Config.readsInFlight) :
    Pool.sound { p.setBlock b (some y) with fetchQueue := q } := by
  obtain ⟨hslot, hsegment, hindex⟩ := hkey
  have hcarries : ∀ (a : BlockId) (k : Block), (p.setBlock b (some y)).block a = some k →
      ∃ k' : Block, p.block a = some k' ∧ k.slot = k'.slot ∧ k.segment = k'.segment ∧ k.index = k'.index := by
    intro a k hk
    by_cases hab : b = a
    · subst hab
      obtain rfl : y = k := by simpa using hk
      exact ⟨x, hb, hslot, hsegment, hindex⟩
    · exact ⟨k, by rw [← hk, block_setBlock_ne p (Ne.symm hab)], rfl, rfl, rfl⟩
  constructor
  case freeOnce => exact hp.freeOnce
  case freeIff =>
    intro a
    refine (hp.freeIff a).trans ?_
    change _ ↔ (p.setBlock b (some y)).block a = none
    by_cases hab : b = a
    · simp [← hab, hb]
    · rw [block_setBlock_ne p (Ne.symm hab)]
  case oneKey =>
    intro a c u v hu hv hs hg hi
    obtain ⟨u', hu', hus, hug, hui⟩ := hcarries a u hu
    obtain ⟨v', hv', hvs, hvg, hvi⟩ := hcarries c v hv
    exact hp.oneKey a c u' v' hu' hv' (by rw [← hus, hs, hvs]) (by rw [← hug, hg, hvg]) (by rw [← hui, hi, hvi])
  case queuedOnce => exact hq
  case queuedIff =>
    intro a
    refine (hmem a).trans ?_
    change _ ↔ ∃ k : Block, (p.setBlock b (some y)).block a = some k ∧ k.state = .waiting
    by_cases hab : b = a
    · simp [← hab]
    · rw [if_neg hab, block_setBlock_ne p (Ne.symm hab), hp.queuedIff]
  case referenced =>
    intro a k hk
    change (p.setBlock b (some y)).block a = some k at hk
    by_cases hab : b = a
    · subst hab
      obtain rfl : y = k := by simpa using hk
      exact href
    · exact hp.referenced a k (by rw [← hk, block_setBlock_ne p (Ne.symm hab)])
  case sixteen => exact hread

/-- A block with another reference set, empty only while its read is in flight (R80, R86). -/
theorem sound.setRefs {b : BlockId} {x : Block} (hb : p.block b = some x) {refs : BitVec 16}
    (href : refs ≠ 0 ∨ x.state = .inFlight) : (p.setBlock b (some { x with refs := refs })).sound := by
  refine hp.replace (y := { x with refs := refs }) hb ⟨rfl, rfl, rfl⟩ href hp.queuedOnce (fun a => ?_) ?_
  · by_cases hab : b = a
    · rw [if_pos hab, ← hab, hp.queuedIff, hb]
      simp
    · rw [if_neg hab]
  · have hle := inFlight_setBlock_le (p := p) (b := b) (x := some { x with refs := refs }) fun h => by
      rw [reading_of_some hb]
      simpa [reading_of_some] using h
    have hsixteen := hp.sixteen
    omega

/-- A block that lanes reference becomes READY at the end of its read (R83). -/
theorem sound.setReady {b : BlockId} {x : Block} (hb : p.block b = some x) (hx : x.state = .inFlight) (href : x.refs ≠ 0)
    (data : List Byte) : (p.setBlock b (some { x with state := .ready data })).sound := by
  refine hp.replace (y := { x with state := .ready data }) hb ⟨rfl, rfl, rfl⟩ (.inl href) hp.queuedOnce (fun a => ?_) ?_
  · by_cases hab : b = a
    · rw [if_pos hab, ← hab, hp.queuedIff, hb]
      simp [hx]
    · rw [if_neg hab]
  · have hle := inFlight_setBlock_le (p := p) (b := b) (x := some { x with state := .ready data }) fun h => by
      simp [reading_of_some] at h
    have hsixteen := hp.sixteen
    omega

/-- The read at the front of the fetch queue is issued while fewer than 16 are in flight (R82). -/
theorem sound.issue {b : BlockId} {rest : List BlockId} {x : Block} (hq : p.fetchQueue = b :: rest)
    (hb : p.block b = some x) (hlt : p.inFlight + p.stale < Config.readsInFlight) :
    Pool.sound { p.setBlock b (some { x with state := .inFlight }) with fetchQueue := rest } := by
  have hnodup := hp.queuedOnce
  rw [hq, List.nodup_cons] at hnodup
  obtain ⟨hout, hrest⟩ := hnodup
  refine hp.replace (y := { x with state := .inFlight }) hb ⟨rfl, rfl, rfl⟩ (.inr rfl) hrest (fun a => ?_) ?_
  · by_cases hab : b = a
    · simpa [← hab] using hout
    · rw [if_neg hab, hq, List.mem_cons]
      exact ⟨.inr, fun h => h.resolve_left (Ne.symm hab)⟩
  · have hcount := inFlight_setBlock p b (some { x with state := .inFlight })
    have hone := Bool.toNat_le ((p.setBlock b (some { x with state := .inFlight })).reading b)
    omega

/-- A block in use is freed (R78, R86). -/
theorem sound.free {b : BlockId} {x : Block} (hb : p.block b = some x) : (p.free b).sound := by
  have hused : ∀ (a : BlockId) (k : Block), (p.free b).block a = some k → b ≠ a ∧ p.block a = some k := by
    intro a k hk
    rw [block_free] at hk
    split at hk
    · cases hk
    · next hab => exact ⟨hab, hk⟩
  have hout : b ∉ p.freeList := by
    rw [hp.freeIff, hb]
    exact nofun
  constructor
  case freeOnce => exact hp.freeOnce.append (List.nodup_singleton b) (List.disjoint_singleton.mpr hout)
  case freeIff =>
    intro a
    change a ∈ p.freeList ++ [b] ↔ _
    rw [List.mem_append, hp.freeIff, block_free, List.mem_singleton]
    by_cases hab : b = a
    · simp [hab]
    · simp [hab, Ne.symm hab]
  case oneKey =>
    intro a c u v hu hv
    exact hp.oneKey a c u v (hused a u hu).2 (hused c v hv).2
  case queuedOnce => exact hp.queuedOnce.filter _
  case queuedIff =>
    intro a
    change a ∈ p.fetchQueue.filter (· != b) ↔ _
    rw [List.mem_filter, hp.queuedIff, block_free]
    by_cases hab : b = a
    · simp [hab]
    · simp [hab, Ne.symm hab]
  case referenced => exact fun a k hk => hp.referenced a k (hused a k hk).2
  case sixteen =>
    have hle : (p.free b).inFlight ≤ p.inFlight :=
      inFlight_setBlock_le (p := p) (b := b) (x := none) fun h => by
        rw [reading_of_none (block_setBlock_self p b none)] at h
        cases h
    exact (Nat.add_le_add_right hle p.stale).trans hp.sixteen

/-- The block at the front of the free list is created for one lane with a key that no block carries, and its read joins
the fetch queue (R80). -/
theorem sound.create {b : BlockId} {rest : List BlockId} (hfree : p.freeList = b :: rest) {x : Block}
    (hkey : p.find x.slot x.segment x.index = none) (hx : x.state = .waiting) (href : x.refs ≠ 0) :
    Pool.sound { p.setBlock b (some x) with freeList := rest, fetchQueue := p.fetchQueue ++ [b] } := by
  have hb : p.block b = none := (hp.freeIff b).mp (by simp [hfree])
  have hnodup := hp.freeOnce
  rw [hfree, List.nodup_cons] at hnodup
  obtain ⟨hout, hrest⟩ := hnodup
  have hother : ∀ (a : BlockId) (k : Block), p.block a = some k → ¬ (x.slot = k.slot ∧ x.segment = k.segment ∧
      x.index = k.index) := fun a k hk h => find_eq_none.mp hkey a k hk ⟨h.1.symm, h.2.1.symm, h.2.2.symm⟩
  have hholds : ∀ (a : BlockId) (k : Block), (p.setBlock b (some x)).block a = some k →
      (a = b ∧ k = x) ∨ p.block a = some k := by
    intro a k hk
    rw [block_setBlock] at hk
    split at hk
    · next hab => exact .inl ⟨hab.symm, (Option.some.inj hk).symm⟩
    · exact .inr hk
  constructor
  case freeOnce => exact hrest
  case freeIff =>
    intro a
    change a ∈ rest ↔ (p.setBlock b (some x)).block a = none
    by_cases hab : b = a
    · simpa [← hab] using hout
    · rw [block_setBlock_ne p (Ne.symm hab), ← hp.freeIff, hfree, List.mem_cons]
      exact ⟨.inr, fun h => h.resolve_left (Ne.symm hab)⟩
  case oneKey =>
    intro a c u v hu hv hslot hsegment hindex
    rcases hholds a u hu with ⟨ha, rfl⟩ | hu'
    · rcases hholds c v hv with ⟨hc, -⟩ | hv'
      · rw [ha, hc]
      · exact absurd ⟨hslot, hsegment, hindex⟩ (hother c v hv')
    · rcases hholds c v hv with ⟨-, rfl⟩ | hv'
      · exact absurd ⟨hslot.symm, hsegment.symm, hindex.symm⟩ (hother a u hu')
      · exact hp.oneKey a c u v hu' hv' hslot hsegment hindex
  case queuedOnce =>
    exact hp.queuedOnce.append (List.nodup_singleton b) (List.disjoint_singleton.mpr (hp.not_queued hb))
  case queuedIff =>
    intro a
    change a ∈ p.fetchQueue ++ [b] ↔ ∃ k : Block, (p.setBlock b (some x)).block a = some k ∧ k.state = .waiting
    rw [List.mem_append, List.mem_singleton]
    by_cases hab : b = a
    · simp [← hab, hx]
    · rw [block_setBlock_ne p (Ne.symm hab), ← hp.queuedIff]
      simp [Ne.symm hab]
  case referenced =>
    intro a k hk
    rcases hholds a k hk with ⟨-, rfl⟩ | hk'
    · exact .inl href
    · exact hp.referenced a k hk'
  case sixteen =>
    have hle : (p.setBlock b (some x)).inFlight ≤ p.inFlight := inFlight_setBlock_le fun h => by
      simp [reading_of_some, hx] at h
    exact (Nat.add_le_add_right hle p.stale).trans hp.sixteen

/-- A lane leaves the reference set of a block (R86). -/
theorem sound.leave (i : LaneId) (b : BlockId) : (Pool.leave i p b).sound := by
  unfold Pool.leave
  split
  · exact hp
  next x hb =>
  split
  · dsimp only
    split
    · exact hp.free hb
    · next hkeep => exact hp.setRefs hb (by simpa [imp_iff_or_not, or_comm] using hkeep)
  · exact hp

/-- A lane leaves every reference set (R86). -/
theorem sound.leaveAll (i : LaneId) : (p.leaveAll i).sound :=
  List.foldlRecOn allBlocks (Pool.leave i) hp fun _ h b _ => sound.leave h i b

/-- One key of a window is looked up (R80). -/
theorem sound.want (n : SlotId) (list : List Segment) (i : LaneId) (key : Nat × Nat) :
    (Pool.want n list i p key).sound := by
  have hbit : laneBit i ≠ 0 := by
    intro h
    have := congrArg (fun m => inSet m i) h
    simp [inSet, laneBit] at this
  unfold Pool.want
  split
  · split
    · next x hb =>
      refine hp.setRefs hb (.inl fun h => ?_)
      have hin : inSet (addLane x.refs i) i = true := (inSet_addLane _ _ _).mpr (.inr rfl)
      rw [h, not_inSet_zero] at hin
      cases hin
    · exact hp
  · next hkey =>
    split
    · next hfree _ => exact hp.create hfree hkey rfl hbit
    · exact hp

/-- A lane fills its window (R79, R80). -/
theorem sound.fill (n : SlotId) (list : List Segment) (i : LaneId) (cursor : Nat × Nat) :
    (p.fill n list i cursor).sound :=
  List.foldlRecOn _ (Pool.want n list i) hp fun _ h key _ => sound.want h n list i key

/-- Fewer reads issued before a reset are left (R95). -/
theorem sound.setStale {m : Nat} (h : m ≤ p.stale) : Pool.sound { p with stale := m } :=
  ⟨hp.freeOnce, hp.freeIff, hp.oneKey, hp.queuedOnce, hp.queuedIff, hp.referenced,
    (Nat.add_le_add_left h p.inFlight).trans hp.sixteen⟩

end Sound

/-- The pool after a reset, with the reads issued before it (R78, R95). -/
theorem sound_reset {m : Nat} (h : m ≤ Config.readsInFlight) : Pool.sound { Pool.reset with stale := m } := by
  have hfree : ∀ b, Pool.block { Pool.reset with stale := m } b = none := fun b => by simp [block, Pool.reset]
  constructor
  case freeOnce => exact List.nodup_finRange 128
  case freeIff => exact fun b => iff_of_true (List.mem_finRange b) (hfree b)
  case oneKey =>
    intro a b x y hx
    rw [hfree] at hx
    cases hx
  case queuedOnce => exact List.nodup_nil
  case queuedIff =>
    intro b
    rw [hfree]
    exact iff_of_false List.not_mem_nil (by simp)
  case referenced =>
    intro b x hx
    rw [hfree] at hx
    cases hx
  case sixteen =>
    have hnone : Pool.inFlight { Pool.reset with stale := m } = 0 := by
      rw [inFlight_eq, List.countP_eq_zero]
      exact fun b _ => by simp [reading_of_none (hfree b)]
    rw [hnone, Nat.zero_add]
    exact h

end Pool

end Sys2Proof.Machine
end

section
/-! THE STAGING POOL. Which operations of the lanes and of the Job Manager leave the pool as it is, and that the others keep
it sound (R62, R79 to R81, R85, R86, R88). -/

namespace Sys2Proof.Machine

/-! ### Operations that leave the pool -/

section Leaves

variable (s : State) (i : LaneId)

@[simp] theorem send_pool (k : ReqKind) (p : List Byte) : (send s i k p).pool = s.pool := by
  rcases send_cases s i k p with h | h
  · rw [h]
  · rw [h, State.setLane_pool]

@[simp] theorem retransmitAtOnce_pool : (retransmitAtOnce s i).pool = s.pool := by
  unfold retransmitAtOnce
  split
  · rfl
  · split <;> rfl

@[simp] theorem credentialStep_pool (sel : Selector) : (credentialStep s i sel).1.pool = s.pool := by
  unfold credentialStep
  repeat' split
  all_goals simp

@[simp] theorem unlockDecision_pool (p : AttachParams) : (unlockDecision s i p).1.pool = s.pool := by
  unfold unlockDecision
  repeat' split
  all_goals simp

@[simp] theorem rateDecision_pool (p : AttachParams) : (rateDecision s i p).1.pool = s.pool := by
  unfold rateDecision
  repeat' split
  all_goals simp

@[simp] theorem sendChunk_pool (n : SlotId) (g : Segment) : (sendChunk s i n g).pool = s.pool := by
  obtain ⟨l, h, -⟩ := sendChunk_setLane s i n g
  rw [h, State.setLane_pool]

@[simp] theorem programErase_pool (n : SlotId) (k : Nat) (g : Segment) : (programErase s i n k g).pool = s.pool := by
  obtain ⟨l, h, -⟩ := programErase_setLane s i n k g
  rw [h, State.setLane_pool]

/-- What the step in hand calls for only reads the pool (R64). -/
@[simp] theorem proceed_pool : (proceed s i).1.pool = s.pool := by
  unfold proceed
  split
  · rfl
  dsimp only
  split
  case h_7 | h_8 | h_9 | h_11 | h_12 | h_13 | h_14 | h_15 | h_16 | h_17 => split <;> simp
  all_goals simp

@[simp] theorem enterStep_pool (st : Step) : (enterStep s i st).1.pool = s.pool := proceed_pool _ i

@[simp] theorem attachTakeUp_pool (p : AttachParams) : (attachTakeUp s i p).pool = s.pool := by simp [attachTakeUp]

@[simp] theorem detachOff_pool : (detachOff s i).pool = s.pool := by simp [detachOff]

@[simp] theorem becomeCurrent_pool (n : SlotId) : (becomeCurrent s i n).pool = s.pool := by simp [becomeCurrent]

@[simp] theorem removeJob_pool (n : SlotId) (j : Job) (v : Verdict) : (removeJob s i n j v).pool = s.pool := by
  simp [removeJob]

@[simp] theorem raiseEvent_pool (code : FaultCode) : (raiseEvent s i code).pool = s.pool := by simp [raiseEvent]

@[simp] theorem nextSegment_pool (j : Job) (k : Nat) : (nextSegment s i j k).1.pool = s.pool := by
  unfold nextSegment
  dsimp only
  split <;> simp

@[simp] theorem segmentWritten_pool (j : Job) (k : Nat) (g : Segment) : (segmentWritten s i j k g).1.pool = s.pool := by
  unfold segmentWritten
  repeat' split
  all_goals simp

@[simp] theorem readbackWritten_pool (j : Job) (off : Nat) : (readbackWritten s i j off).1.pool = s.pool := by
  unfold readbackWritten
  dsimp only
  repeat' split
  all_goals simp

@[simp] theorem refuse_pool (j : Job) (q : Request) (r : NakReason) : (refuse s i j q r).1.pool = s.pool := by
  unfold refuse
  dsimp only
  split <;> simp

@[simp] theorem answered_pool : (s.answered i).pool = s.pool := by simp [State.answered]

@[simp] theorem placeBarrier_pool (n : SlotId) (j : Job) : (placeBarrier s n j).pool = s.pool := by
  unfold placeBarrier
  dsimp only
  split <;> simp

@[simp] theorem holdEntry_pool (r : RingId) (j : JobSpec) (cause : Blocked) : (holdEntry s r j cause).pool = s.pool := by
  simp [holdEntry]

@[simp] theorem beginCompletion_pool : (beginCompletion s).pool = s.pool := by
  unfold beginCompletion
  repeat' split
  all_goals rfl

@[simp] theorem coalesce_pool (irqNow : Bool) : (coalesce s irqNow).pool = s.pool := by
  unfold coalesce
  split
  · rfl
  · dsimp only
    split <;> rfl

@[simp] theorem completeRecord_pool (r : HeldRecord) : (completeRecord s r).pool = s.pool := by
  unfold completeRecord freeRecordSlot
  cases r <;> simp

@[simp] theorem haltCommand_pool : (haltCommand s).pool = s.pool := by
  unfold haltCommand enterQuiescing
  split <;> simp

@[simp] theorem enableCommand_pool : (enableCommand s).pool = s.pool := by
  unfold enableCommand
  split <;> rfl

@[simp] theorem applySubmit_pool (ring index : Nat) : (applySubmit s ring index).pool = s.pool := by
  unfold applySubmit
  split
  · rfl
  · split <;> rfl

@[simp] theorem configAccepted_pool (c : ConfigBlock) : (configAccepted s c).pool = s.pool := by
  have hkept : ∀ t r, (applyKept s.ctl.keptSubmit t r).pool = State.pool t := by
    intro t r
    unfold applyKept
    split <;> simp
  have hset : (allRings.foldl (applyKept s.ctl.keptSubmit) (configured s c)).pool = s.pool :=
    foldl_keeps State.pool _ hkept _ _
  unfold configAccepted enterQuiescing
  dsimp only
  split <;> simp [hset]

@[simp] theorem joinQueues_pool (n : SlotId) (l : List LaneId) : (l.foldl (joinQueue n) s).pool = s.pool :=
  foldl_keeps State.pool (joinQueue n) (fun _ _ => rfl) l s

/-! ### The pool where it changes -/

/-- At the end of its part of a job a lane leaves every reference set (R86). -/
@[simp] theorem closeJob_pool (n : SlotId) (r : LaneResult) : (closeJob s i n r).pool = s.pool.leaveAll i := by
  simp [closeJob]

@[simp] theorem conclude_pool (n : SlotId) (v : Verdict) : (conclude s i n v).pool = s.pool.leaveAll i := by
  unfold conclude
  split <;> simp

@[simp] theorem fillWindow_pool (n : SlotId) (j : Job) :
    (fillWindow s i n j).pool = s.pool.fill n j.list i ((s.lane i).segment, (s.lane i).block) := rfl

end Leaves

/-! ### Operations that keep the pool sound -/

/-- From `s` to `t` a sound pool stays sound. -/
def KeepsPoolSound (s t : State) : Prop := s.pool.sound → t.pool.sound

namespace KeepsPoolSound

theorem refl (s : State) : KeepsPoolSound s s := id

theorem trans {s t u : State} (h : KeepsPoolSound s t) (k : KeepsPoolSound t u) : KeepsPoolSound s u := k ∘ h

/-- The same pool is as sound. -/
theorem of_pool {s t : State} (h : t.pool = s.pool) : KeepsPoolSound s t := fun hs => h ▸ hs

theorem foldl {α : Type} {f : State → α → State} (hf : ∀ s a, KeepsPoolSound s (f s a)) (l : List α) (s : State) :
    KeepsPoolSound s (l.foldl f s) := fun hs => List.foldlRecOn l f hs fun t ht a _ => hf t a ht

/-! ### Jobs taken up and ended -/

theorem fillWindow (s : State) (i : LaneId) (n : SlotId) (j : Job) : KeepsPoolSound s (fillWindow s i n j) :=
  fun hs => hs.fill n j.list i _

theorem closeJob (s : State) (i : LaneId) (n : SlotId) (r : LaneResult) : KeepsPoolSound s (closeJob s i n r) := by
  intro hs
  rw [closeJob_pool]
  exact hs.leaveAll i

theorem conclude (s : State) (i : LaneId) (n : SlotId) (v : Verdict) : KeepsPoolSound s (conclude s i n v) := by
  intro hs
  rw [conclude_pool]
  exact hs.leaveAll i

/-- Of the jobs that work inside a session a PROGRAM alone fills a window (R62, R81). -/
theorem firstStep (s : State) (i : LaneId) (n : SlotId) (j : Job) : KeepsPoolSound s (firstStep s i n j).1 := by
  unfold Machine.firstStep
  split
  case h_2 =>
    split
    · exact refl s
    · exact (fillWindow s i n j).trans (of_pool (enterStep_pool _ i _))
  all_goals exact of_pool (by simp)

theorem sessionJobTakeUp (s : State) (i : LaneId) (n : SlotId) (j : Job) :
    KeepsPoolSound s (sessionJobTakeUp s i n j).1 := by
  unfold Machine.sessionJobTakeUp
  split
  · exact refl s
  split
  · exact refl s
  · exact firstStep s i n j

theorem takeUp (s : State) (i : LaneId) (n : SlotId) : KeepsPoolSound s (takeUp s i n).1 := by
  unfold Machine.takeUp
  split
  · exact refl s
  have hstart : KeepsPoolSound s (s.modLane i Lane.startJob) := of_pool rfl
  dsimp only
  split
  case h_2 =>
    split
    · split
      · exact of_pool (by simp)
      · exact hstart
    · exact of_pool (by simp)
  case h_3 | h_4 | h_5 | h_6 | h_7 => exact hstart.trans (sessionJobTakeUp _ i n _)
  all_goals exact of_pool (by simp)

/-- However many jobs end at once, the pool stays sound (R58). -/
theorem settle (fuel : Nat) (s : State) (i : LaneId) : KeepsPoolSound s (settle fuel s i) := by
  induction fuel generalizing s with
  | zero => exact refl s
  | succ fuel ih =>
    unfold Machine.settle
    split
    · exact refl s
    next n _ _ =>
    have hcur : KeepsPoolSound s (becomeCurrent s i n) := of_pool (by simp)
    have htake := hcur.trans (takeUp (becomeCurrent s i n) i n)
    dsimp only
    split
    · exact hcur
    split
    · next heq => rw [heq] at htake; exact htake
    · next heq => rw [heq] at htake; exact htake.trans ((conclude _ i n _).trans (ih _))

theorem nextJob (s : State) (i : LaneId) : KeepsPoolSound s (nextJob s i) := settle _ s i

theorem finishLane (s : State) (i : LaneId) (v : Verdict) : KeepsPoolSound s (finishLane s i v) := by
  unfold Machine.finishLane
  split
  · exact refl s
  · exact (conclude s i _ v).trans (nextJob _ i)

/-- An operation of a lane's engine, brought to its end. -/
theorem resolveStep {s : State} {p : Stepped} (h : KeepsPoolSound s p.1) (i : LaneId) :
    KeepsPoolSound s (resolveStep i p) := by
  unfold Machine.resolveStep
  split
  · exact h
  · exact h.trans (finishLane _ i _)

theorem faultLane (s : State) (i : LaneId) (code : FaultCode) (refused : Bool) :
    KeepsPoolSound s (faultLane s i code refused) := by
  have hoff : KeepsPoolSound s (if code.isSupply then switchOff ((releasePin s i).modLane i
      (fun k => k.enterFaulted code)) i else (releasePin s i).modLane i (fun k => k.enterFaulted code)) := by
    split
    · exact of_pool (by simp)
    · exact of_pool (by simp)
  unfold Machine.faultLane
  split
  · split
    · exact of_pool (by simp)
    · exact refl s
  · dsimp only
    split
    · exact hoff.trans ((closeJob _ i _ _).trans (nextJob _ i))
    · exact hoff.trans (of_pool (raiseEvent_pool _ i code))

theorem laneFault (s : State) (i : LaneId) (code : FaultCode) : KeepsPoolSound s (laneFault s i code) :=
  faultLane s i code false

/-! ### Answers -/

theorem consumeBlock (s : State) (i : LaneId) (n : SlotId) (g b : Nat) : KeepsPoolSound s (consumeBlock s i n g b) := by
  unfold Machine.consumeBlock
  split
  · exact refl s
  · exact fun hs => hs.leave i _

theorem writeAcked (s : State) (i : LaneId) (n : SlotId) (g : Segment) (c : List Byte) :
    KeepsPoolSound s (writeAcked s i n g c) := by
  unfold Machine.writeAcked
  dsimp only
  split
  · exact of_pool rfl
  · exact .trans (of_pool (State.modLane_pool s i _)) (consumeBlock _ i n _ _)

/-- Of the usual effects of a good answer a WRITE's alone reaches the pool (R65, R85). -/
theorem answerEffect (s : State) (i : LaneId) (n : SlotId) (j : Job) (q : Request) (p : List Byte) :
    KeepsPoolSound s (answerEffect s i n j q p) := by
  unfold Machine.answerEffect
  dsimp only
  split
  case h_9 =>
    split
    · exact refl s
    · exact writeAcked s i n _ _
  case h_3 | h_11 => split <;> exact of_pool rfl
  all_goals exact of_pool rfl

/-- Of the ways on after a good answer a WRITE's alone fills a window (R81). -/
theorem afterAnswer (s : State) (i : LaneId) (n : SlotId) (j : Job) (b : Lane) (q : Request) (p : List Byte) :
    KeepsPoolSound s (afterAnswer s i n j b q p).1 := by
  unfold Machine.afterAnswer
  dsimp only
  split
  case h_1 | h_2 => split <;> exact of_pool (by simp)
  case h_9 =>
    split
    · exact refl s
    have hfill : KeepsPoolSound s (if (decide ((s.lane i).segment = b.segment) && decide ((s.lane i).block = b.block)) =
        true then s else Machine.fillWindow s i n j) := by
      split
      · exact refl s
      · exact fillWindow s i n j
    split
    · exact hfill.trans (of_pool (enterStep_pool _ i _))
    · exact hfill.trans (of_pool (segmentWritten_pool _ i j _ _))
  case h_7 | h_10 | h_11 =>
    repeat' split
    all_goals exact of_pool (by simp)
  all_goals exact of_pool (by simp)

theorem goodAnswer (s : State) (i : LaneId) (n : SlotId) (j : Job) (q : Request) (p : List Byte) :
    KeepsPoolSound s (goodAnswer s i n j q p).1 := by
  have heffect : KeepsPoolSound s (Machine.answerEffect (s.answered i) i n j q p) :=
    .trans (of_pool (answered_pool s i)) (answerEffect _ i n j q p)
  unfold Machine.goodAnswer
  dsimp only
  split
  · exact heffect
  split
  · exact heffect
  · exact heffect.trans (afterAnswer _ i n j _ q p)

theorem takeWait (s : State) (i : LaneId) (q : Request) (estimate : Nat) : KeepsPoolSound s (takeWait s i q estimate) := by
  unfold Machine.takeWait
  split
  · exact laneFault s i _
  · exact of_pool rfl

theorem takeFrame (s : State) (i : LaneId) (seq kind : Byte) (payload : List Byte) :
    KeepsPoolSound s (takeFrame s i seq kind payload) := by
  unfold Machine.takeFrame
  split
  · split
    · exact refl s
    split
    · exact laneFault s i _
    · exact takeWait s i _ _
    · split
      · exact of_pool (by simp)
      split
      · exact faultLane s i _ _
      · exact resolveStep (of_pool (refuse_pool s i _ _ _)) i
    · split
      · exact laneFault s i _
      · exact resolveStep (goodAnswer s i _ _ _ _) i
  · exact refl s

/-! ### Conversion results -/

theorem takeCheck (s : State) (i : LaneId) (mv : Nat) : KeepsPoolSound s (takeCheck s i mv) := by
  unfold Machine.takeCheck
  split
  · dsimp only
    split
    · repeat' split
      all_goals exact of_pool rfl
    split
    · exact .trans (of_pool (State.modLane_pool s i _)) (laneFault _ i _)
    · exact of_pool rfl
  · exact refl s

theorem takeSupervise (s : State) (i : LaneId) (mv : Nat) : KeepsPoolSound s (takeSupervise s i mv) := by
  unfold Machine.takeSupervise
  split
  · exact of_pool rfl
  split
  · exact of_pool rfl
  · exact .trans (of_pool (State.modLane_pool s i _)) (laneFault _ i _)

/-! ### Jobs placed, aborted, and failed by their image -/

theorem placeLaneJob (s : State) (n : SlotId) (j : Job) : KeepsPoolSound s (placeLaneJob s n j) := by
  unfold Machine.placeLaneJob
  exact .trans (of_pool (by simp)) (foldl nextJob _ _)

theorem place (s : State) (n : SlotId) : KeepsPoolSound s (place s n) := by
  unfold Machine.place
  split
  · exact refl s
  next j _ =>
  have hring : KeepsPoolSound s (s.modRing j.ring (fun r => { r with inIntake := false })) := of_pool rfl
  dsimp only
  split
  case h_1 => exact of_pool (by simp)
  case h_9 | h_10 | h_11 => exact hring
  all_goals exact hring.trans (placeLaneJob _ n j)

theorem examine (s : State) (r : RingId) (j : JobSpec) : KeepsPoolSound s (examine s r j) := by
  unfold Machine.examine
  split
  · exact of_pool (by simp)
  split
  · unfold claim
    dsimp only
    split
    · exact of_pool (by simp)
    · exact .trans (of_pool (by simp)) (place _ _)
  · exact of_pool (by simp)

theorem abortLane (n : SlotId) (s : State) (i : LaneId) : KeepsPoolSound s (abortLane n s i) := by
  unfold Machine.abortLane
  split
  · exact refl s
  split
  · exact refl s
  split
  · exact of_pool (by simp)
  split
  · unfold abortBeforeIdentity
    exact .trans (of_pool (by simp)) (finishLane _ i _)
  split
  · exact refl s
  · exact finishLane s i _

theorem abortJob (s : State) (n : SlotId) (j : Job) : KeepsPoolSound s (abortJob s n j) := by
  unfold Machine.abortJob
  split
  · exact refl s
  · exact of_pool rfl
  · exact of_pool (by simp)
  · exact foldl (abortLane n) _ s
  · exact .trans (of_pool (State.setSlot_pool s n _)) (foldl (abortLane n) _ _)

theorem abortLookup (s : State) (own : IntakeCompletion) (r : RingId) (tag : BitVec 16) :
    KeepsPoolSound s (abortLookup s own r tag) := by
  unfold Machine.abortLookup
  split
  · exact of_pool (by simp)
  split
  · exact of_pool (by simp)
  split
  · exact .trans (of_pool (by simp)) (abortJob _ _ _)
  · exact of_pool (by simp)

/-- A record that has been read good, whatever it asks for (R127 to R130). -/
theorem takeRecord (s : State) (r : RingId) (bytes : List Byte) :
    KeepsPoolSound s (takeRecord s r bytes) := by
  unfold Machine.takeRecord
  split
  · exact of_pool (by simp)
  split
  · exact of_pool (by simp)
  split
  case h_1 => exact abortLookup s _ _ _
  case h_2 e _ =>
    have hclear : (clearCredentials s e).1.pool = s.pool := by
      unfold clearCredentials
      split
      · split <;> rfl
      · split <;> rfl
    exact of_pool (by simp [hclear])
  case h_3 => exact of_pool rfl
  all_goals exact examine s _ _

theorem imageFailedLane (n : SlotId) (s : State) (i : LaneId) : KeepsPoolSound s (imageFailedLane n s i) := by
  unfold Machine.imageFailedLane
  split
  · exact refl s
  split
  · exact finishLane s i _
  · exact refl s

theorem imageFailed (s : State) (n : SlotId) (g b : Nat) : KeepsPoolSound s (imageFailed s n g b) := by
  unfold Machine.imageFailed
  split
  · exact refl s
  split
  · exact refl s
  · exact .trans (of_pool (State.setSlot_pool s n _)) (foldl (imageFailedLane n) _ _)

end KeepsPoolSound

end Sys2Proof.Machine
end

section
/-! CERTIFICATES. Every command keeps the Staging Pool sound (R77, R78, R82, R86, R95): those of the pool itself, those that
take up, go on with or end a job on a lane, and those that only read the pool or leave it. -/

namespace Sys2Proof.Machine

/-- Wherever a command leads on, the pool is sound. -/
def LeadsToSoundPool (r : Result) : Prop := ∀ t : State, r = .next t → t.pool.sound

theorem LeadsToSoundPool.next {t : State} (h : t.pool.sound) : LeadsToSoundPool (.next t) := by
  intro u hu
  obtain rfl : t = u := by simpa using hu
  exact h

section Commands

variable {s : State} (h : s.pool.sound)
include h

theorem KeepsPoolSound.leads {t : State} (ht : KeepsPoolSound s t) : LeadsToSoundPool (.next t) := .next (ht h)

/-- A command that leaves the pool keeps it sound. -/
theorem leads_of_pool {t : State} (ht : t.pool = s.pool) : LeadsToSoundPool (.next t) :=
  (KeepsPoolSound.of_pool ht).leads h

/-! ### The Staging Pool -/

/-- The block whose read is at the front of the fetch queue waits for it (R82). -/
theorem execStagingReadIssue_sound : LeadsToSoundPool (execStagingReadIssue s) := by
  unfold execStagingReadIssue
  split
  · exact .next h
  next b rest hq =>
  split
  · next hissue =>
    have hlt : s.pool.inFlight + s.pool.stale < Config.readsInFlight := by
      rw [Bool.and_eq_true, decide_eq_true_iff] at hissue
      exact hissue.2
    split
    · next hb => exact .next (h.issue hq hb hlt)
    · next hb => exact absurd (by simp [hq]) (h.not_queued hb)
  · exact .next h

theorem blockReadEnd_sound {b : BlockId} {k : Block} (hb : s.pool.block b = some k) (hk : k.state = .inFlight)
    (r : HostRead) : (blockReadEnd s b k r).pool.sound := by
  have hfreed : (s.setPool (s.pool.free b)).pool.sound := h.free hb
  unfold blockReadEnd
  split
  · split
    · exact h
    split
    · rw [(offerIfClear_frame _ _).2.2.2.2.1]
      exact hfreed
    · next href => exact h.setReady hb hk href _
  · rw [(offerIfClear_frame _ _).2.2.2.2.1]
    exact KeepsPoolSound.imageFailed _ _ _ _ hfreed

theorem execStagingReadEnd_sound (e : Epoch) (b : BlockId) (r : HostRead) :
    LeadsToSoundPool (execStagingReadEnd e b r s) := by
  unfold execStagingReadEnd
  split
  · exact .next (h.setStale (Nat.sub_le _ _))
  split
  · exact .next h
  next hb =>
  split
  · next hk => exact .next (blockReadEnd_sound h hb hk r)
  · exact .next h

omit h in
/-- A reset returns every block to the free list, and the reads in flight are counted on (R78, R95). -/
theorem resetTo_sound (h : s.pool.sound) (addr : BitVec 64) : (resetTo s addr).pool.sound :=
  Pool.sound_reset (by rw [Nat.add_comm]; exact h.sixteen)

/-! ### The Loader Link -/

theorem leads_resolveStep {p : Stepped} (hp : KeepsPoolSound s p.1) (i : LaneId) :
    LeadsToSoundPool (.next (resolveStep i p)) := (KeepsPoolSound.resolveStep hp i).leads h

theorem leads_spoilFrame (i : LaneId) : LeadsToSoundPool (.next (spoilFrame s i)) :=
  leads_of_pool h (by simp [spoilFrame])

theorem execChunkSend_sound (i : LaneId) : LeadsToSoundPool (execChunkSend i s) := by
  unfold execChunkSend
  split
  · exact leads_resolveStep h (.of_pool (proceed_pool s i)) i
  · exact .next h

theorem execReadbackWriteEnd_sound (e : Epoch) (i : LaneId) (r : HostWrite) :
    LeadsToSoundPool (execReadbackWriteEnd e i r s) := by
  unfold execReadbackWriteEnd
  split
  · split
    · unfold endedWriteOut
      dsimp only
      split
      · exact leads_resolveStep h (.of_pool (by simp)) i
      · exact leads_of_pool h rfl
    · exact .next h
  · split
    · split
      · exact leads_resolveStep h (.of_pool (readbackWritten_pool s i _ _)) i
      · exact leads_resolveStep h (.of_pool (State.modLane_pool s i _)) i
    · exact .next h

theorem execFrameSent_sound (i : LaneId) : LeadsToSoundPool (execFrameSent i s) := by
  unfold execFrameSent
  split
  · exact .next h
  · exact .next h
  dsimp only
  split
  · exact leads_of_pool h rfl
  split
  · exact leads_of_pool h rfl
  split
  · exact leads_resolveStep h (.of_pool (by simp)) i
  · exact leads_of_pool h rfl

theorem execResponseTimeout_sound (i : LaneId) : LeadsToSoundPool (execResponseTimeout i s) := by
  unfold execResponseTimeout
  split
  · exact .next h
  split
  · exact .next h
  split
  · exact leads_of_pool h rfl
  · exact (KeepsPoolSound.laneFault s i _).leads h

theorem execFrameReceived_sound (i : LaneId) (chars : List Byte) : LeadsToSoundPool (execFrameReceived i chars s) := by
  unfold execFrameReceived
  split
  · split
    · exact (KeepsPoolSound.trans (.of_pool (State.modLane_pool s i _)) (.takeFrame _ i _ _ _)).leads h
    all_goals exact .next h
  · exact .next h

theorem execFrameSpoiled_sound (i : LaneId) (chars : List Byte) (bad : Option RxChar) :
    LeadsToSoundPool (execFrameSpoiled i chars bad s) := by
  unfold execFrameSpoiled
  split
  · exact leads_spoilFrame h i
  · exact .next h

theorem execFrameGapTimeout_sound (i : LaneId) : LeadsToSoundPool (execFrameGapTimeout i s) := by
  unfold execFrameGapTimeout
  split
  · exact leads_spoilFrame h i
  · exact .next h

theorem execFrameCharacterReceived_sound (i : LaneId) (char : RxChar) :
    LeadsToSoundPool (execFrameCharacterReceived i char s) := by
  unfold execFrameCharacterReceived
  split
  · exact leads_of_pool h rfl
  · exact .next h

/-! ### The phases of ATTACH -/

theorem execTrainingPatternSent_sound (i : LaneId) : LeadsToSoundPool (execTrainingPatternSent i s) := by
  unfold execTrainingPatternSent
  split
  all_goals exact leads_of_pool h rfl

theorem execTrainingCharacterReceived_sound (i : LaneId) (char : RxChar) :
    LeadsToSoundPool (execTrainingCharacterReceived i char s) := by
  unfold execTrainingCharacterReceived
  split
  · split
    · exact leads_of_pool h rfl
    · exact leads_resolveStep h (.of_pool (by simp)) i
  · exact .next h

theorem execTrainingTimeout_sound (i : LaneId) : LeadsToSoundPool (execTrainingTimeout i s) := by
  unfold execTrainingTimeout
  split
  · dsimp only
    split
    · exact (KeepsPoolSound.trans (.of_pool (State.modLane_pool s i _)) (.laneFault _ i _)).leads h
    split
    · exact leads_of_pool h rfl
    split
    all_goals exact leads_of_pool h rfl
  · exact .next h

theorem execPowerSettleExpiry_sound (i : LaneId) : LeadsToSoundPool (execPowerSettleExpiry i s) := by
  unfold execPowerSettleExpiry
  split
  all_goals exact leads_of_pool h rfl

theorem execCheckWaitExpiry_sound (i : LaneId) : LeadsToSoundPool (execCheckWaitExpiry i s) := by
  unfold execCheckWaitExpiry
  split
  all_goals exact leads_of_pool h rfl

theorem execResetPulseExpiry_sound (i : LaneId) : LeadsToSoundPool (execResetPulseExpiry i s) := by
  unfold execResetPulseExpiry
  split
  · split
    all_goals exact leads_of_pool h rfl
  · exact .next h

theorem execBootSettleExpiry_sound (i : LaneId) : LeadsToSoundPool (execBootSettleExpiry i s) := by
  unfold execBootSettleExpiry
  split
  · split
    · dsimp only
      split
      all_goals exact leads_of_pool h rfl
    · exact .next h
  · exact .next h

theorem execRateGapExpiry_sound (i : LaneId) : LeadsToSoundPool (execRateGapExpiry i s) := by
  unfold execRateGapExpiry
  split
  · exact .next h
  dsimp only
  split
  · exact leads_resolveStep h (.of_pool (by simp)) i
  · exact leads_of_pool h rfl

/-! ### The Supply Monitor -/

theorem execSuperviseTimerExpiry_sound : LeadsToSoundPool (execSuperviseTimerExpiry s) := by
  unfold execSuperviseTimerExpiry
  split
  all_goals exact leads_of_pool h rfl

theorem execConversionStart_sound : LeadsToSoundPool (execConversionStart s) := by
  unfold execConversionStart
  split
  · exact .next h
  split
  · exact leads_of_pool h rfl
  split
  all_goals exact leads_of_pool h rfl

theorem execConversionEnd_sound (mv : Int) : LeadsToSoundPool (execConversionEnd mv s) := by
  unfold execConversionEnd
  split
  · exact .next h
  next c _ =>
  have hsample : KeepsPoolSound s (State.modLane { s with supply := { s.supply with converter := none } } c.lane
      (fun l => { l with lastSample := sampleOf mv })) := .of_pool rfl
  dsimp only
  split
  · exact leads_of_pool h rfl
  split
  · exact (hsample.trans (.takeCheck _ _ _)).leads h
  · exact (hsample.trans (.takeSupervise _ _ _)).leads h

theorem execOvercurrentTrip_sound (i : LaneId) : LeadsToSoundPool (execOvercurrentTrip i s) := by
  unfold execOvercurrentTrip
  split
  · exact (KeepsPoolSound.laneFault s i _).leads h
  · exact .next h

/-! ### The Intake Unit -/

theorem execIntakeArbiterChoice_sound : LeadsToSoundPool (execIntakeArbiterChoice s) := by
  unfold execIntakeArbiterChoice
  split
  · split
    · unfold chooseRing
      dsimp only
      split
      · exact (KeepsPoolSound.trans (.of_pool (by rfl)) (.examine _ _ _)).leads h
      · exact leads_of_pool h rfl
    · exact .next h
  · exact .next h

theorem execRecordReadEnd_sound (e : Epoch) (r : HostRead) : LeadsToSoundPool (execRecordReadEnd e r s) := by
  unfold execRecordReadEnd
  split
  · split
    · exact .next h
    split
    · exact leads_of_pool h (by simp)
    split
    · exact (KeepsPoolSound.takeRecord s _ _).leads h
    · exact .next h
  · exact .next h

theorem execLoadCredentialReadEnd_sound (e : Epoch) (r : HostRead) :
    LeadsToSoundPool (execLoadCredentialReadEnd e r s) := by
  unfold execLoadCredentialReadEnd
  split
  · split
    · repeat' split
      all_goals exact leads_of_pool h (by simp)
    · exact .next h
  · exact .next h

theorem execListReadEnd_sound (e : Epoch) (n : SlotId) (r : HostRead) : LeadsToSoundPool (execListReadEnd e n r s) := by
  have hretire : ∀ j, (retireAborted s n j).pool = s.pool := fun j => by simp [retireAborted]
  have hfail : ∀ j st d, (completeFromIntake s n j st d).pool = s.pool := fun j st d => by simp [completeFromIntake]
  unfold execListReadEnd
  split
  · split
    · exact .next h
    split
    · split
      · exact leads_of_pool h (hretire _)
      · exact leads_of_pool h (hfail _ _ _)
    split
    · exact .next h
    split
    · exact leads_of_pool h (hretire _)
    dsimp only
    split
    · exact leads_of_pool h (hfail _ _ _)
    · exact (KeepsPoolSound.trans (.of_pool (State.setSlot_pool s n _)) (.place _ n)).leads h
  · exact .next h

/-! ### The Completion Writer -/

theorem execCompletionTransactionStart_sound : LeadsToSoundPool (execCompletionTransactionStart s) := by
  unfold execCompletionTransactionStart
  repeat' split
  all_goals exact leads_of_pool h rfl

theorem execResultRecordWriteEnd_sound (e : Epoch) (i : LaneId) (r : HostWrite) :
    LeadsToSoundPool (execResultRecordWriteEnd e i r s) := by
  unfold execResultRecordWriteEnd
  dsimp only
  repeat' split
  all_goals exact leads_of_pool h (by simp)

theorem execCompletionRecordWriteEnd_sound (e : Epoch) (r : HostWrite) :
    LeadsToSoundPool (execCompletionRecordWriteEnd e r s) := by
  unfold execCompletionRecordWriteEnd
  repeat' split
  all_goals exact leads_of_pool h (by simp)

theorem execCoalescingDelayExpiry_sound : LeadsToSoundPool (execCoalescingDelayExpiry s) := by
  unfold execCoalescingDelayExpiry
  split
  all_goals exact leads_of_pool h (by simp [cqSignal])

/-! ### Device Control -/

theorem execEnable_sound (w : Bool) : LeadsToSoundPool (execEnable w s) := by
  unfold execEnable
  split
  all_goals exact leads_of_pool h (by simp)

theorem execSubmitWrite_sound (value : BitVec 32) : LeadsToSoundPool (execSubmitWrite value s) := by
  unfold execSubmitWrite
  dsimp only
  split
  all_goals exact leads_of_pool h (by simp)

theorem execCqHeadWrite_sound (value : BitVec 32) : LeadsToSoundPool (execCqHeadWrite value s) := by
  unfold execCqHeadWrite
  split
  all_goals exact leads_of_pool h rfl

theorem execConfigReadEnd_sound (e : Epoch) (r : HostRead) : LeadsToSoundPool (execConfigReadEnd e r s) := by
  unfold execConfigReadEnd
  split
  · split
    · exact leads_of_pool h (by simp)
    split
    · exact .next h
    split
    · exact leads_of_pool h (by simp)
    · exact leads_of_pool h (by simp [configRefused])
  · exact .next h

/-! ### Every command -/

/-- Every command keeps the pool sound. -/
theorem exec_poolSound (c : Instr) : LeadsToSoundPool (exec c s) := by
  cases c with
  | powerOnReset => exact .next (resetTo_sound h 0)
  | softReset => exact .next (resetTo_sound h _)
  | enable w => exact execEnable_sound h w
  | halt => exact leads_of_pool h (by simp)
  | submitWrite v => exact execSubmitWrite_sound h v
  | cqHeadWrite v => exact execCqHeadWrite_sound h v
  | irqWrite v => exact leads_of_pool h rfl
  | statusWrite v => exact leads_of_pool h rfl
  | configAddrWrite half v => exact leads_of_pool h rfl
  | registerWriteIgnored o b v => exact .next h
  | configReadEnd e r => exact execConfigReadEnd_sound h e r
  | drainComplete => exact leads_of_pool h (by simp)
  | intakeArbiterChoice => exact execIntakeArbiterChoice_sound h
  | recordReadEnd e r => exact execRecordReadEnd_sound h e r
  | listReadEnd e n r => exact execListReadEnd_sound h e n r
  | loadCredentialReadEnd e r => exact execLoadCredentialReadEnd_sound h e r
  | holdingQueueEntry => exact leads_of_pool h (by simp)
  | completionTransactionStart => exact execCompletionTransactionStart_sound h
  | resultRecordWriteEnd e i r => exact execResultRecordWriteEnd_sound h e i r
  | completionRecordWriteEnd e r => exact execCompletionRecordWriteEnd_sound h e r
  | coalescingDelayExpiry => exact execCoalescingDelayExpiry_sound h
  | stagingReadIssue => exact execStagingReadIssue_sound h
  | stagingReadEnd e b r => exact execStagingReadEnd_sound h e b r
  | chunkSend i => exact execChunkSend_sound h i
  | readbackWriteEnd e i r => exact execReadbackWriteEnd_sound h e i r
  | frameSent i => exact execFrameSent_sound h i
  | responseTimeout i => exact execResponseTimeout_sound h i
  | frameReceived i chars => exact execFrameReceived_sound h i chars
  | frameSpoiled i chars bad => exact execFrameSpoiled_sound h i chars bad
  | frameGapTimeout i => exact execFrameGapTimeout_sound h i
  | trainingPatternSent i => exact execTrainingPatternSent_sound h i
  | trainingCharacterReceived i char => exact execTrainingCharacterReceived_sound h i char
  | trainingTimeout i => exact execTrainingTimeout_sound h i
  | powerSettleExpiry i => exact execPowerSettleExpiry_sound h i
  | checkWaitExpiry i => exact execCheckWaitExpiry_sound h i
  | resetPulseExpiry i => exact execResetPulseExpiry_sound h i
  | bootSettleExpiry i => exact execBootSettleExpiry_sound h i
  | rateGapExpiry i => exact execRateGapExpiry_sound h i
  | superviseTimerExpiry => exact execSuperviseTimerExpiry_sound h
  | conversionStart => exact execConversionStart_sound h
  | conversionEnd mv => exact execConversionEnd_sound h mv
  | overcurrentTrip i => exact execOvercurrentTrip_sound h i
  | frameCharacterReceived i char => exact execFrameCharacterReceived_sound h i char

end Commands

/-- Settles O57: a step is the front command on the state with the rest of the queue, which has the same pool. -/
theorem everyStepKeepsThePoolSound : Obligations.EveryStepKeepsThePoolSound := by
  intro s t h hstep
  unfold step at hstep
  split at hstep
  · exact LeadsToSoundPool.next h t hstep
  · next rest _ => exact exec_poolSound (s := { s with pending := rest }) h _ t hstep

end Sys2Proof.Machine
end

section
/-! CERTIFICATES. Lane windows: the keys that follow a cursor, and the block that a key joins or creates (R77 to R80). -/

namespace Sys2Proof.Machine

/-! ### The keys of an image -/

/-- The blocks of segment `g` by their keys (R77, R79). -/
def segmentKeys (list : List Segment) (g : Nat) : List (Nat × Nat) :=
  match list[g]? with
  | none => []
  | some e => (List.range ((e.length + 127) / 128)).map (fun b => (g, b))

theorem imageKeys_eq (list : List Segment) : imageKeys list = (List.range list.length).flatMap (segmentKeys list) := rfl

/-- The keys of a segment are those of its blocks in order. -/
theorem segmentKeys_eq {list : List Segment} {g : Nat} {e : Segment} (he : list[g]? = some e) :
    segmentKeys list g = (List.range e.blocks).map (fun b => (g, b)) := by
  simp [segmentKeys, he, Segment.blocks, Config.blockBytes]

theorem segmentKeys_getElem? {list : List Segment} {g b : Nat} {key : Nat × Nat}
    (h : (segmentKeys list g)[b]? = some key) : ∃ e : Segment, list[g]? = some e ∧ b < e.blocks ∧ key = (g, b) := by
  cases he : list[g]? with
  | none => simp [segmentKeys, he] at h
  | some e =>
    rw [segmentKeys_eq he, List.getElem?_map, Option.map_eq_some_iff] at h
    obtain ⟨c, hc, rfl⟩ := h
    obtain ⟨hlt, rfl⟩ := List.getElem?_eq_some_iff.mp hc
    exact ⟨e, rfl, by simpa using hlt, by simp⟩

/-- From block `b` of a segment on: its key, and those from the block after it on. -/
theorem drop_segmentKeys {list : List Segment} {g b : Nat} {e : Segment} (he : list[g]? = some e) (hb : b < e.blocks) :
    (segmentKeys list g).drop b = (g, b) :: (segmentKeys list g).drop (b + 1) := by
  have hlen : b < (segmentKeys list g).length := by simpa [segmentKeys_eq he] using hb
  rw [List.drop_eq_getElem_cons hlen]
  simp [segmentKeys_eq he]

theorem drop_segmentKeys_past {list : List Segment} {g b : Nat} {e : Segment} (he : list[g]? = some e)
    (hb : e.blocks ≤ b) : (segmentKeys list g).drop b = [] := by
  simpa [segmentKeys_eq he] using hb

/-- An element of a concatenation stands in one of its lists, and those after it are the rest of that list and the lists
after that one. -/
theorem drop_flatMap_of_getElem? {α β : Type} (f : α → List β) {x : β} (l : List α) {p : Nat}
    (h : (l.flatMap f)[p]? = some x) : ∃ (m k : Nat) (a : α), l[m]? = some a ∧ (f a)[k]? = some x ∧
      (l.flatMap f).drop p = (f a).drop k ++ (l.drop (m + 1)).flatMap f := by
  induction l generalizing p with
  | nil => simp at h
  | cons a l ih =>
    rw [List.flatMap_cons] at h ⊢
    by_cases hp : p < (f a).length
    · refine ⟨0, p, a, rfl, ?_, ?_⟩
      · rwa [List.getElem?_append_left hp] at h
      · rw [List.drop_append_of_le_length hp.le]
        rfl
    · rw [List.getElem?_append_right (Nat.le_of_not_lt hp)] at h
      obtain ⟨m, k, c, hm, hk, hdrop⟩ := ih h
      refine ⟨m + 1, k, c, hm, hk, ?_⟩
      rw [List.drop_append, List.drop_eq_nil_of_le (Nat.le_of_not_lt hp), List.nil_append, hdrop]
      rfl

/-- From any key of the image on: the blocks of its segment from its own on, and then those of the segments after it. -/
theorem drop_imageKeys {list : List Segment} {p : Nat} {key : Nat × Nat} (h : (imageKeys list)[p]? = some key) :
    (∃ e : Segment, list[key.1]? = some e ∧ key.2 < e.blocks) ∧ (imageKeys list).drop p =
      (segmentKeys list key.1).drop key.2 ++ ((List.range list.length).drop (key.1 + 1)).flatMap (segmentKeys list) := by
  rw [imageKeys_eq] at h ⊢
  obtain ⟨m, b, g, hm, hb, hdrop⟩ := drop_flatMap_of_getElem? (segmentKeys list) _ h
  obtain ⟨e, he, hlt, rfl⟩ := segmentKeys_getElem? hb
  obtain ⟨_, hmg⟩ := List.getElem?_eq_some_iff.mp hm
  obtain rfl : m = g := by simpa using hmg
  exact ⟨⟨e, he, hlt⟩, hdrop⟩

/-! ### The keys from a cursor on -/

/-- Past the job's last block a window is empty (R79). -/
theorem keysFrom_past (list : List Segment) (count b : Nat) : keysFrom list count (list.length, b) = [] := by
  cases count <;> simp [keysFrom]

/-- A window holds the keys from its cursor on, across segment boundaries (R79). -/
theorem keysFrom_eq_take {list : List Segment} (hpos : ∀ e ∈ list, 0 < e.length) (count : Nat) {g b : Nat} {e : Segment}
    (he : list[g]? = some e) (hb : b < e.blocks) : keysFrom list count (g, b) =
      ((segmentKeys list g).drop b ++ ((List.range list.length).drop (g + 1)).flatMap (segmentKeys list)).take count := by
  induction count generalizing g b e with
  | zero => simp [keysFrom]
  | succ count ih =>
    obtain ⟨hg, -⟩ := List.getElem?_eq_some_iff.mp he
    rw [keysFrom, if_pos hg, drop_segmentKeys he hb, List.cons_append, List.take_succ_cons]
    congr 1
    by_cases hmore : b + 1 < e.blocks
    · have hnext : nextKey list (g, b) = (g, b + 1) := by simp [nextKey, he, hmore]
      rw [hnext]
      exact ih he hmore
    · have hnext : nextKey list (g, b) = (g + 1, 0) := by simp [nextKey, he, hmore]
      rw [hnext, drop_segmentKeys_past he (Nat.le_of_not_lt hmore), List.nil_append]
      by_cases hlast : g + 1 < list.length
      · have hfirst : 0 < (list[g + 1]).blocks := by
          have hlen := hpos _ (List.getElem_mem hlast)
          exact Nat.div_pos (by simp only [Config.blockBytes]; omega) (by decide)
        have hrange : (List.range list.length).drop (g + 1) = (g + 1) :: (List.range list.length).drop (g + 1 + 1) := by
          rw [List.drop_eq_getElem_cons (by simpa using hlast)]
          simp
        rw [ih (List.getElem?_eq_getElem hlast) hfirst, hrange, List.flatMap_cons]
        rfl
      · have hend : g + 1 = list.length := by omega
        rw [hend, keysFrom_past, List.drop_eq_nil_of_le (by simp)]
        simp

/-! ### One key is looked up -/

/-- A block that carries the key gains the lane (R80). -/
theorem Pool.want_joins {p : Pool} {n : SlotId} {list : List Segment} {i : LaneId} {key : Nat × Nat} {a : BlockId}
    {k : Block} (hf : p.find n key.1 key.2 = some a) (ha : p.block a = some k) :
    Pool.want n list i p key = p.setBlock a (some { k with refs := addLane k.refs i }) := by
  simp [Pool.want, hf, ha]

/-- Without one the front of the free list is created for the lane alone, its read at the back of the fetch queue (R80). -/
theorem Pool.want_creates {p : Pool} {n : SlotId} {list : List Segment} {i : LaneId} {key : Nat × Nat} {a : BlockId}
    {rest : List BlockId} {e : Segment} (hf : p.find n key.1 key.2 = none) (ha : p.freeList = a :: rest)
    (he : list[key.1]? = some e) : Pool.want n list i p key =
      { p with
        blocks := p.blocks.set a.val (some
          { slot := n, segment := key.1, index := key.2, valid := e.validBytes key.2, state := .waiting, refs := laneBit i })
        freeList := rest
        fetchQueue := p.fetchQueue ++ [a] } := by
  simp [Pool.want, hf, ha, he]

/-- Settles O33: the keys from a cursor on are a part of the image's keys, and in a sound pool the key finds its one block. -/
theorem windowKeysFollowAndJoin : Obligations.WindowKeysFollowAndJoin := by
  refine ⟨fun list hpos => ⟨fun p key hkey => ?_, keysFrom_past list 7⟩, fun p n list i g b hp => ⟨?_, ?_⟩⟩
  · obtain ⟨⟨e, he, hb⟩, hdrop⟩ := drop_imageKeys hkey
    rw [hdrop]
    exact keysFrom_eq_take hpos 7 he hb
  · rintro a k ha rfl rfl rfl
    exact Pool.want_joins (key := (k.segment, k.index)) (Pool.find_of_block hp ha) ha
  · intro hno a rest e ha he
    exact Pool.want_creates (key := (g, b)) (Pool.find_eq_none.mpr hno) ha he

end Sys2Proof.Machine
end

section
/-! CERTIFICATES. Staging reads issued and ended, and the RETIRING job that the last orphan's end lets be offered (R82, R83,
R86, R88, R92, R95, R138, R139). -/

namespace Sys2Proof.Machine

/-! ### Candidates -/

/-- Offering a job when its blocks allow changes the writer alone. -/
theorem offerIfClear_eq (s : State) (n : SlotId) : offerIfClear s n = { s with writer := (offerIfClear s n).writer } := by
  unfold offerIfClear offerJob State.joinWait
  repeat' split
  all_goals rfl

/-- A job that arrives with room, none waiting and outside FAULT enters the holding queue at once (R138). -/
theorem offerJob_of_open {s : State} (h : s.holdingOpen) (n : SlotId) : offerJob s n = s.pushHolding (.job n) :=
  if_pos ((canEnter_iff s).mpr h)

/-- Otherwise it joins the wait list (R138). -/
theorem offerJob_of_not_open {s : State} {n : SlotId} (h : ¬ s.holdingOpen) (hn : .job n ∉ s.writer.waitList) :
    offerJob s n = { s with writer := { s.writer with waitList := s.writer.waitList ++ [.job n] } } := by
  unfold offerJob State.joinWait
  rw [if_neg fun hc => h ((canEnter_iff s).mp hc), if_neg fun hc => hn (List.contains_iff_mem.mp hc)]

theorem State.offered_iff (s : State) (n : SlotId) :
    s.offered n = true ↔ .job n ∈ s.writer.holding ∨ .job n ∈ s.writer.waitList := by
  unfold State.offered
  rw [Bool.or_eq_true, List.contains_iff_mem, List.contains_iff_mem, or_comm]

/-- Some block is keyed to the slot (R92). -/
theorem Pool.keyed_iff (p : Pool) (n : SlotId) :
    p.keyed n = true ↔ ∃ (a : BlockId) (x : Block), p.block a = some x ∧ x.slot = n := by
  unfold Pool.keyed Pool.block
  rw [List.any_eq_true]
  constructor
  · rintro ⟨a, -, ha⟩
    split at ha
    · next x hx => exact ⟨a, x, hx, by simpa using ha⟩
    · cases ha
  · rintro ⟨a, x, hx, hslot⟩
    exact ⟨a, List.mem_finRange a, by simp [hx, hslot]⟩

/-- A RETIRING job is offered, once, when no block is keyed to its slot (R92, R139). -/
theorem offerIfClear_retiring {s : State} {n : SlotId} {j : Job} (hj : s.slot n = some j) (hs : j.state = .retiring) :
    offerIfClear s n = if s.offered n = true ∨ s.pool.keyed n = true then s else offerJob s n := by
  unfold offerIfClear
  rw [hj]
  cases s.offered n <;> cases s.pool.keyed n <;> simp [hs]

/-! ### The end of a read -/

/-- A read in flight ends (R83). -/
theorem exec_stagingReadEnd {s : State} {b : BlockId} {k : Block} (hb : s.pool.block b = some k) (hk : k.state = .inFlight)
    (r : HostRead) : exec (.stagingReadEnd .live b r) s = .next (blockReadEnd s b k r) := by
  simp [exec, execStagingReadEnd, hb, hk]

/-- A block with no read in flight is not touched (log 2). -/
theorem exec_stagingReadEnd_other {s : State} {b : BlockId} {k : Block} (hb : s.pool.block b = some k)
    (hk : k.state ≠ .inFlight) (r : HostRead) : exec (.stagingReadEnd .live b r) s = .next s := by
  simp [exec, execStagingReadEnd, hb, hk]

/-- A block that lanes reference becomes READY (R83). -/
theorem blockReadEnd_ready {s : State} {b : BlockId} {k : Block} {bytes : List Byte} (hl : bytes.length = k.valid)
    (href : k.refs ≠ 0) : blockReadEnd s b k (.good bytes) =
      s.setPool (s.pool.setBlock b (some { k with state := .ready bytes })) := by
  unfold blockReadEnd
  dsimp only
  rw [if_neg (not_not.mpr hl), if_neg href]

/-- An orphan is freed (R83, R86). -/
theorem blockReadEnd_orphan {s : State} {b : BlockId} {k : Block} {bytes : List Byte} (hl : bytes.length = k.valid)
    (href : k.refs = 0) : blockReadEnd s b k (.good bytes) = offerIfClear (s.setPool (s.pool.free b)) k.slot := by
  simp [blockReadEnd, hl, href]

/-! ### A job that stands in no lane queue -/

/-- A slot set to what it holds. -/
theorem State.setSlot_slot_self {s : State} {n : SlotId} {j : Job} (hj : s.slot n = some j) :
    s.setSlot n (some j) = s := by
  rw [← hj]
  unfold State.setSlot State.slot
  rw [Vector.set_getElem_self]

/-- A lane that does not hold the job in its queue is not changed by the failure of its image (R89). -/
theorem imageFailedLane_of_not_queued {s : State} {n : SlotId} {i : LaneId} (h : n ∉ (s.lane i).queue) :
    imageFailedLane n s i = s := by
  unfold imageFailedLane
  split
  · rfl
  next m j hc =>
  obtain ⟨⟨rest, hq⟩, -⟩ := head_of_currentJob hc
  have hm : m ≠ n := by
    rintro rfl
    exact h (by simp [hq])
  simp [hm]

/-- The job once a read of its image has failed: the first failed block is marked, once (R88). -/
def Job.markedFailed (j : Job) (g b : Nat) : Job :=
  { j with imageFailed := if j.imageFailed = none then some (g, b) else j.imageFailed }

theorem Job.markedFailed_of_none {j : Job} (h : j.imageFailed = none) (g b : Nat) :
    j.markedFailed g b = { j with imageFailed := some (g, b) } := by
  simp [Job.markedFailed, h]

theorem Job.markedFailed_of_some {j : Job} (h : j.imageFailed ≠ none) (g b : Nat) : j.markedFailed g b = j := by
  simp [Job.markedFailed, h]

/-- A job already marked changes nothing (R88). -/
theorem imageFailed_of_marked {s : State} {n : SlotId} {j : Job} (hj : s.slot n = some j) (hm : j.imageFailed ≠ none)
    (g b : Nat) : imageFailed s n g b = s := by
  simp [imageFailed, hj, Option.isSome_iff_ne_none.mpr hm]

/-- A job not yet marked is, and then its lanes are dealt with (R88, R89). -/
theorem imageFailed_of_unmarked {s : State} {n : SlotId} {j : Job} (hj : s.slot n = some j) (hm : j.imageFailed = none)
    (g b : Nat) : imageFailed s n g b =
      (lanesOf j.spec.lanes).foldl (imageFailedLane n) (s.setSlot n (some { j with imageFailed := some (g, b) })) := by
  simp [imageFailed, hj, hm]

/-- A job that stands in no lane queue is marked, and no lane changes (R88, R89). -/
theorem imageFailed_of_not_queued {s : State} {n : SlotId} {j : Job} (hj : s.slot n = some j)
    (hq : ∀ i : LaneId, n ∉ (s.lane i).queue) (g b : Nat) :
    imageFailed s n g b = s.setSlot n (some (j.markedFailed g b)) := by
  by_cases hm : j.imageFailed = none
  · rw [imageFailed_of_unmarked hj hm, Job.markedFailed_of_none hm]
    refine List.foldlRecOn _ (imageFailedLane n) (motive := fun t => t = s.setSlot n (some _)) rfl fun t ht i _ => ?_
    rw [ht]
    exact imageFailedLane_of_not_queued (hq i)
  · rw [imageFailed_of_marked hj hm, Job.markedFailed_of_some hm, State.setSlot_slot_self hj]

section Orphan

variable {s : State} {b : BlockId} {k : Block} {j : Job} {r : HostRead}

/-- The job that the end of an orphan's read, good or failed, leaves: a failed one marks it (R88). -/
def Job.afterRead (j : Job) (k : Block) (r : HostRead) : Job :=
  { j with imageFailed := if r = .failed ∧ j.imageFailed = none then some (k.segment, k.index) else j.imageFailed }

/-- The end of an orphan's read frees the block, marks the job if it failed, and offers the job if it may be (R83, R88,
R92). -/
theorem blockReadEnd_of_not_queued (href : k.refs = 0)
    (hr : r = .failed ∨ ∃ bytes : List Byte, r = .good bytes ∧ bytes.length = k.valid) (hj : s.slot k.slot = some j)
    (hq : ∀ i : LaneId, k.slot ∉ (s.lane i).queue) : blockReadEnd s b k r =
      offerIfClear ((s.setPool (s.pool.free b)).setSlot k.slot (some (j.afterRead k r))) k.slot := by
  have hj' : (s.setPool (s.pool.free b)).slot k.slot = some j := hj
  rcases hr with rfl | ⟨bytes, rfl, hl⟩
  · have hafter : j.afterRead k .failed = j.markedFailed k.segment k.index := by simp [Job.afterRead, Job.markedFailed]
    unfold blockReadEnd
    dsimp only
    rw [imageFailed_of_not_queued hj' hq, hafter]
  · have hafter : j.afterRead k (.good bytes) = j := by simp [Job.afterRead]
    rw [blockReadEnd_orphan hl href, hafter, State.setSlot_slot_self hj']

/-- No block but `b` is keyed to the slot exactly when none is once `b` is freed (R92). -/
theorem Pool.keyed_free_iff (p : Pool) (b : BlockId) (n : SlotId) : (p.free b).keyed n = true ↔
    ¬ ∀ (a : BlockId) (x : Block), a ≠ b → p.block a = some x → x.slot ≠ n := by
  rw [Pool.keyed_iff]
  push Not
  refine exists_congr fun a => exists_congr fun x => ?_
  rw [Pool.block_free]
  by_cases hab : b = a
  · simp [hab]
  · simp [hab, Ne.symm hab]

end Orphan

/-- Settles O31: the front of the fetch queue, the block by its references, and the RETIRING job by whether another block is
keyed to its slot and whether it has been offered. -/
theorem stagingReadsIssueAndEnd : Obligations.StagingReadsIssueAndEnd := by
  refine ⟨fun s => ⟨fun b rest k hq hb hlt hd => ?_, fun hstop => ?_⟩, fun s b k bytes hb => ⟨?_, ?_, ?_⟩, ?_⟩
  · simp [exec, execStagingReadIssue, hq, hb, hlt, hd, Config.readsInFlight, State.setPool, Pool.setBlock]
  · change execStagingReadIssue s = _
    unfold execStagingReadIssue
    split
    · rfl
    next hq =>
    rw [if_neg]
    rw [Bool.and_eq_true, bne_iff_ne, decide_eq_true_iff]
    rintro ⟨hd, hlt⟩
    rcases hstop with h | h | h
    · simp [hq] at h
    · exact absurd hlt (Nat.not_lt.mpr h)
    · exact hd h
  · intro hk hl href
    rw [exec_stagingReadEnd hb hk, blockReadEnd_ready hl href]
    rfl
  · intro hk hl href
    refine ⟨_, exec_stagingReadEnd hb hk _, ?_⟩
    rw [blockReadEnd_orphan hl href]
    have hpool : (offerIfClear (s.setPool (s.pool.free b)) k.slot).pool = s.pool.free b :=
      (offerIfClear_frame _ _).2.2.2.2.1
    rw [hpool]
    refine ⟨offerIfClear_eq _ _, ?_, rfl, rfl, rfl, fun a ha => ?_⟩
    · rw [Pool.block_free, if_pos rfl]
    · rw [Pool.block_free, if_neg ha.symm]
  · exact fun hk r => exec_stagingReadEnd_other hb hk r
  · intro s b k j r hb hk href hr hj hs hq last offered
    obtain ⟨u, hu⟩ : ∃ u : State, u = (s.setPool (s.pool.free b)).setSlot k.slot (some (j.afterRead k r)) := ⟨_, rfl⟩
    have huslot : u.slot k.slot = some (j.afterRead k r) := by rw [hu, State.slot_setSlot_self]
    have hoffered : u.offered k.slot = true ↔ offered := by rw [State.offered_iff, hu]; rfl
    have hlast : u.pool.keyed k.slot = true ↔ ¬ last := by
      rw [hu]
      exact Pool.keyed_free_iff s.pool b k.slot
    have hwriter : u.writer = s.writer := by rw [hu]; rfl
    have hopen : u.holdingOpen ↔ s.holdingOpen := by rw [hu]; exact Iff.rfl
    have hoffer := offerIfClear_retiring huslot hs
    obtain ⟨hctl, hintake, hslots, hlanes, hpool, hcreds, hsupply, -⟩ := offerIfClear_frame u k.slot
    refine ⟨offerIfClear u k.slot, ?_, ?_, fun a ha => ?_, ?_, ?_, fun m hm => ?_, ?_, ?_, ?_, ?_, ?_, ?_, ?_, ?_⟩
    · rw [exec_stagingReadEnd hb hk, blockReadEnd_of_not_queued href hr hj hq, hu]
    · rw [hpool, hu]
      exact (Pool.block_free s.pool b b).trans (if_pos rfl)
    · rw [hpool, hu]
      exact (Pool.block_free s.pool b a).trans (if_neg ha.symm)
    · rw [hpool, hu]
      rfl
    · rw [State.slot_congr hslots, huslot]
      rfl
    · rw [State.slot_congr hslots, hu, State.slot_setSlot_ne _ hm]
      rfl
    · rw [hlanes, hu]; rfl
    · rw [hctl, hu]; rfl
    · rw [hcreds, hu]; rfl
    · rw [hsupply, hu]; rfl
    · rw [hintake, hu]; rfl
    · intro hl ho hopen'
      rw [hoffer, if_neg (by rw [hoffered, hlast]; tauto), offerJob_of_open (hopen.mpr hopen'),
        State.pushHolding_writer, hwriter]
    · intro hl ho hclosed
      have hwait : .job k.slot ∉ u.writer.waitList := fun hm => ho (.inr (hwriter ▸ hm))
      rw [hoffer, if_neg (by rw [hoffered, hlast]; tauto), offerJob_of_not_open (mt hopen.mp hclosed) hwait, hwriter]
    · intro hstays
      rw [hoffer, if_pos (by rw [hoffered, hlast]; exact hstays), hwriter]

end Sys2Proof.Machine
end

section
/-! CERTIFICATES. A failed image read: the job is marked, the block freed, and the job's only lane dealt with (R88, R89). -/

namespace Sys2Proof.Machine

theorem lanesOf_laneBit (i : LaneId) : lanesOf (laneBit i) = [i] := by
  revert i
  decide

/-! ### Blocks that are left stay out of use -/

/-- A block out of use stays so when a lane leaves another (R86). -/
theorem Pool.block_leave_of_none {p : Pool} {a : BlockId} (h : p.block a = none) (i : LaneId) (b : BlockId) :
    (Pool.leave i p b).block a = none := by
  unfold Pool.leave
  split
  · exact h
  next x hb =>
  have hab : b ≠ a := by
    rintro rfl
    rw [h] at hb
    cases hb
  dsimp only
  split
  · split
    · rw [Pool.block_free, if_neg hab]; exact h
    · rw [Pool.block_setBlock, if_neg hab]; exact h
  · exact h

theorem Pool.block_leaveAll_of_none {p : Pool} {a : BlockId} (h : p.block a = none) (i : LaneId) :
    (p.leaveAll i).block a = none :=
  List.foldlRecOn (motive := fun q => q.block a = none) allBlocks (Pool.leave i) h fun _ hq b _ =>
    Pool.block_leave_of_none hq i b

/-! ### What the end of a job and an offer leave -/

/-- The end of a lane's part of a job leaves the intake engine and the supply monitor. -/
theorem closeJob_engine_supply (s : State) (i : LaneId) (n : SlotId) (r : LaneResult) :
    (closeJob s i n r).intake.engine = s.intake.engine ∧ (closeJob s i n r).supply = s.supply := by
  simp [closeJob]

/-- An offer keeps the results recorded. -/
theorem offerIfClear_resultOf (s : State) (n m : SlotId) (i : LaneId) :
    (offerIfClear s n).resultOf m i = s.resultOf m i := by
  unfold State.resultOf
  rw [State.slot_congr (offerIfClear_frame s n).2.2.1]

/-- The verdict names the failed block's first byte in the target (R88). -/
theorem hostReadVerdict_addr {j : Job} {g : Segment} {k b : Nat} (hm : j.imageFailed = some (k, b))
    (hg : j.list[k]? = some g) : (hostReadVerdict j).addr = some (g.target + BitVec.ofNat 32 (128 * b)) := by
  simp [hostReadVerdict, hm, hg, Config.blockBytes]

/-- HOST_READ comes with no reason and no kind (R88, R89). -/
theorem hostReadVerdict_fields (j : Job) :
    (hostReadVerdict j).outcome = .hostRead ∧ (hostReadVerdict j).nak = none ∧ (hostReadVerdict j).kind = none := by
  unfold hostReadVerdict
  split <;> exact ⟨rfl, rfl, rfl⟩

section OnlyLane

variable {s : State} {n : SlotId} {i : LaneId} {j : Job}

/-- The job's lane, taken up on it with no request outstanding, ends with HOST_READ (R89). -/
theorem imageFailedLane_ends (hq : (s.lane i).queue = [n]) (hj : s.slot n = some j) (hst : (s.lane i).step ≠ .none)
    (ho : (s.lane i).outstanding = none) :
    imageFailedLane n s i = closeJob s i n ((s.lane i).result j.spec.params true (hostReadVerdict j)) := by
  have hends : imageFailedLane n s i = finishLane s i (hostReadVerdict j) := by
    simp [imageFailedLane, currentJob_of_head hq hj, hst, ho]
  rw [hends]
  exact resolveStep_onlyJob hq hj _

/-- A lane with a request outstanding is not changed now (R89). -/
theorem imageFailedLane_waits (hq : (s.lane i).queue = [n]) (hj : s.slot n = some j)
    (ho : (s.lane i).outstanding.isSome = true) : imageFailedLane n s i = s := by
  have ho' : (s.lane i).outstanding.isNone = false := by
    rw [← Option.not_isSome, ho]
    rfl
  simp [imageFailedLane, currentJob_of_head hq hj, ho']

/-- A job of one lane that is not yet marked is, and its lane is dealt with (R88, R89). -/
theorem imageFailed_onlyLane (hj : s.slot n = some j) (hlanes : j.spec.lanes = laneBit i) (hm : j.imageFailed = none)
    (g b : Nat) : imageFailed s n g b =
      imageFailedLane n (s.setSlot n (some { j with imageFailed := some (g, b) })) i := by
  rw [imageFailed_of_unmarked hj hm, hlanes, lanesOf_laneBit]
  rfl

end OnlyLane

/-- The state in which a failed image read's job is dealt with: the block is free again, and the job marked (R88). -/
def State.imageMarked (s : State) (b : BlockId) (k : Block) (j : Job) : State :=
  (s.setPool (s.pool.free b)).setSlot k.slot (some { j with imageFailed := some (k.segment, k.index) })

theorem State.imageMarked_slot (s : State) (b : BlockId) (k : Block) (j : Job) :
    (s.imageMarked b k j).slot k.slot = some { j with imageFailed := some (k.segment, k.index) } :=
  State.slot_setSlot_self _ _ _

/-- The job marked, its lane's part of it ends: what that leaves (R56, R86, R89). -/
theorem State.imageMarked_ends {s t : State} {b : BlockId} {k : Block} {j : Job} {i : LaneId} {r : LaneResult}
    (ht : t = closeJob (s.imageMarked b k j) i k.slot r) (hq : (s.lane i).queue = [k.slot])
    (hres : j.results[i.val] = none) :
    EndsOnlyJob s t i k.slot (s.lane i) r ∧ t.creds = s.creds ∧ t.supply = s.supply ∧ t.intake.engine = s.intake.engine ∧
      t.pool.block b = none := by
  have hloc : LaneLocal i s (s.imageMarked b k j) := .of_lanes rfl rfl rfl
  have hend := endsOnlyJob_closeJob hloc hq (s.imageMarked_slot b k j) hres r
  obtain ⟨hengine, hsupply⟩ := closeJob_engine_supply (s.imageMarked b k j) i k.slot r
  subst ht
  refine ⟨hend, by rw [closeJob_creds]; rfl, hsupply, hengine, ?_⟩
  rw [closeJob_pool]
  exact Pool.block_leaveAll_of_none ((Pool.block_free s.pool b b).trans (if_pos rfl)) i

/-- Settles O32: the job by whether it is marked, and its lane by whether a request is outstanding. -/
theorem failedImageReadMarksTheJob : Obligations.FailedImageReadMarksTheJob := by
  intro s b k j g i hb hk hj hlanes hq hst hres hactive hg
  have hfreed : (s.setPool (s.pool.free b)).pool.block b = none := (Pool.block_free s.pool b b).trans (if_pos rfl)
  obtain ⟨t, ht⟩ : ∃ t : State, t = imageFailed (s.setPool (s.pool.free b)) k.slot k.segment k.index := ⟨_, rfl⟩
  have hexec : exec (.stagingReadEnd .live b .failed) s = .next (offerIfClear t k.slot) := by
    rw [exec_stagingReadEnd hb hk, ht]
    rfl
  obtain ⟨hctl, hintake, hslots, hlane, hpool, hcreds, hsupply, -⟩ := offerIfClear_frame t k.slot
  have hlane' := State.lane_congr hlane
  have hslot' := State.slot_congr hslots
  -- What the cases have in common is read off the state before the offer.
  suffices h : t.ctl = s.ctl ∧ (∀ m : LaneId, m ≠ i → t.lane m = s.lane m) ∧ t.creds = s.creds ∧ t.supply = s.supply ∧
      t.intake.engine = s.intake.engine ∧ t.pool.block b = none ∧
      (j.imageFailed = none → (s.lane i).outstanding = none →
        (∃ x : LaneResult, t.resultOf k.slot i = some x ∧ x.outcome = .hostRead ∧ x.nak = none ∧ x.kind = none ∧
          x.addr = some (g.target + BitVec.ofNat 32 (128 * k.index))) ∧
        (t.lane i).state = (s.lane i).state ∧ (t.lane i).identity = (s.lane i).identity ∧ (t.lane i).queue = []) ∧
      (j.imageFailed = none → (s.lane i).outstanding.isSome = true →
        t.slot k.slot = some { j with imageFailed := some (k.segment, k.index) } ∧ t.lane i = s.lane i) ∧
      (j.imageFailed.isSome = true → t.slots = s.slots ∧ t.lane i = s.lane i) by
    refine ⟨_, hexec, ?_⟩
    simp only [hctl, hcreds, hsupply, hintake, hpool, hlane', hslot', hslots, offerIfClear_resultOf]
    exact h
  by_cases hm : j.imageFailed = none
  · rw [imageFailed_onlyLane (s := s.setPool (s.pool.free b)) hj hlanes hm] at ht
    change t = imageFailedLane k.slot (s.imageMarked b k j) i at ht
    have hmslot := s.imageMarked_slot b k j
    cases ho : (s.lane i).outstanding with
    | none =>
      rw [imageFailedLane_ends (s := s.imageMarked b k j) hq hmslot hst ho] at ht
      obtain ⟨hend, hcreds', hsupply', hengine, hfree⟩ := State.imageMarked_ends ht hq hres
      obtain ⟨houtcome, hnak, hkind⟩ := hostReadVerdict_fields { j with imageFailed := some (k.segment, k.index) }
      refine ⟨hend.ctl, hend.others, hcreds', hsupply', hengine, hfree,
        fun _ _ => ⟨⟨_, hend.result, houtcome, hnak, hkind, hostReadVerdict_addr rfl hg⟩, ?_⟩, nofun, by simp [hm]⟩
      rw [hend.lane]
      exact ⟨rfl, rfl, rfl⟩
    | some q =>
      rw [imageFailedLane_waits (s := s.imageMarked b k j) hq hmslot (congrArg Option.isSome ho)] at ht
      subst ht
      exact ⟨rfl, fun _ _ => rfl, rfl, rfl, rfl, hfreed, nofun, fun _ _ => ⟨hmslot, rfl⟩, by simp [hm]⟩
  · rw [imageFailed_of_marked (s := s.setPool (s.pool.free b)) hj hm] at ht
    subst ht
    exact ⟨rfl, fun _ _ => rfl, rfl, rfl, rfl, hfreed, fun h => absurd h hm, fun h => absurd h hm, fun _ => ⟨rfl, rfl⟩⟩

end Sys2Proof.Machine
end

section
/-! SUPPORT. How a request of a marked job ends: the usual effect of its answer on the lane and on the pool, and the verdict
that the marks give (R25, R37 to R42, R61 to R70, R85, R89, R104, R151, R153). -/

namespace Sys2Proof.Machine

/-! ### The verdict of the marks -/

/-- The job is aborted or image-failed (R89, R151). -/
def Job.marked (j : Job) : Prop := j.abortMark = true ∨ j.imageFailed ≠ none

/-- The verdict on a marked job whose request ends: ABORTED, or with no abort HOST_READ (R89, R151; log 14). -/
def Job.markVerdict (j : Job) : Verdict := if j.abortMark then Verdict.plain .aborted else hostReadVerdict j

theorem Job.markVerdict_aborted {j : Job} (h : j.abortMark = true) : j.markVerdict = Verdict.plain .aborted := if_pos h

theorem Job.markVerdict_hostRead {j : Job} (h : j.abortMark = false) : j.markVerdict = hostReadVerdict j :=
  if_neg (by simp [h])

/-- The verdict of the marks names no reason and no kind (R89, R151). -/
theorem Job.markVerdict_unnamed (j : Job) : j.markVerdict.nak = none ∧ j.markVerdict.kind = none := by
  unfold Job.markVerdict
  split
  · exact ⟨rfl, rfl⟩
  · exact (hostReadVerdict_fields j).2

theorem Job.imageFailed_of_marked {j : Job} (h : j.marked) (ha : j.abortMark = false) : j.imageFailed.isSome = true :=
  Option.isSome_iff_ne_none.mpr (h.resolve_left (by simp [ha]))

/-- A good answer to a marked job's request, but for a START, has its usual effect, and the marks give the verdict (R89,
R151). -/
theorem goodAnswer_marked {s : State} {i : LaneId} {n : SlotId} {j : Job} {q : Request} (h : j.marked)
    (hk : q.kind ≠ .start) (payload : List Byte) : goodAnswer s i n j q payload =
      (answerEffect (s.answered i) i n j q payload, some j.markVerdict) := by
  cases ha : j.abortMark with
  | true => simp [goodAnswer, State.answered, ha, hk, Job.markVerdict_aborted]
  | false => simp [goodAnswer, State.answered, ha, Job.imageFailed_of_marked h ha, Job.markVerdict_hostRead]

/-- A refusal of a marked job's request, but for a START with an abort pending, leaves the verdict to the marks (R89, R104,
R151). -/
theorem refusalVerdict_marked {j : Job} {q : Request} (h : j.marked) (hk : q.kind = .start → j.abortMark = false)
    (r : NakReason) : refusalVerdict j q r = j.markVerdict := by
  cases ha : j.abortMark with
  | true =>
    have hstart : q.kind ≠ .start := fun hq => by simp [hk hq] at ha
    simp [refusalVerdict, ha, hstart, Job.markVerdict_aborted]
  | false => simp [refusalVerdict, ha, Job.imageFailed_of_marked h ha, Job.markVerdict_hostRead]

/-- Only DETACH sends a START (R42). -/
theorem Step.eq_detachStart {st : Step} (h : st.request = some .start) : st = .detachStart := by
  cases st <;> simp [Step.request] at h
  rfl

/-- A START ends as DETACH does, whatever the abort mark (R153). -/
theorem goodAnswer_start {s : State} {i : LaneId} {n : SlotId} {j : Job} {q : Request} (hk : q.kind = .start)
    (hst : (s.lane i).step = .detachStart) (hi : j.imageFailed = none) (payload : List Byte) :
    goodAnswer s i n j q payload = (answerEffect (s.answered i) i n j q payload, some (Verdict.plain .ok)) := by
  simp [goodAnswer, State.answered, hk, hi, afterAnswer, hst]

theorem refusalVerdict_start {j : Job} {q : Request} (hk : q.kind = .start) (hi : j.imageFailed = none) (r : NakReason) :
    refusalVerdict j q r =
      { outcome := .targetRefused, nak := some r, kind := some .start, addr := requestAddr q.kind q.payload } := by
  simp [refusalVerdict, hk, hi]

/-! ### What the usual effect leaves -/

/-- On lane `l` the request of lane `m` has ended, and its line stands as it was: no request, no pin, the readback write and
the count of requests kept, the frame on TXD its own no longer, and the switch where it was (R25, R69, R101). -/
structure Lane.LineAnswered (l m : Lane) : Prop where
  outstanding : l.outstanding = none
  pinned : l.pinned = none
  readback : l.readback = m.readback
  sent : l.sent = m.sent
  tx : l.tx = m.tx.orphaned
  power : l.power = m.power

theorem Lane.lineAnswered_acked (s : State) (i : LaneId) : ((s.acked i).lane i).LineAnswered (s.lane i) := by
  rw [State.acked_lane]
  exact ⟨rfl, rfl, rfl, rfl, rfl, rfl⟩

theorem Tx.orphaned_orphaned (t : Tx) : t.orphaned.orphaned = t.orphaned := by cases t <;> rfl

/-- The cursor is no part of the line. -/
theorem Lane.LineAnswered.advanceCursor {l m : Lane} (h : l.LineAnswered m) (g : Segment) (len : Nat) :
    (l.advanceCursor g len).LineAnswered m ∧ (l.advanceCursor g len).state = l.state := by
  obtain ⟨ho, hp, hr, hs, ht, hw⟩ := h
  unfold Lane.advanceCursor
  split
  · exact ⟨⟨ho, hp, hr, hs, ht, hw⟩, rfl⟩
  · split <;> exact ⟨⟨ho, hp, hr, hs, ht, hw⟩, rfl⟩

/-- A WRITE's ACK feeds the chunk to the lane and leaves its block, if it is used up (R65, R85). -/
theorem writeAcked_lane (s : State) (i : LaneId) (n : SlotId) (g : Segment) (chunk : List Byte) :
    (writeAcked s i n g chunk).lane i = { (s.lane i).advanceCursor g chunk.length with
      crc := crc32Feed (s.lane i).crc chunk, bytes := (s.lane i).bytes + chunk.length } := by
  have hfed : ∀ l : Lane, (l.advanceCursor g chunk.length).crc = l.crc ∧ (l.advanceCursor g chunk.length).bytes = l.bytes := by
    intro l
    unfold Lane.advanceCursor
    split
    · exact ⟨rfl, rfl⟩
    · split <;> exact ⟨rfl, rfl⟩
  unfold writeAcked consumeBlock
  dsimp only
  split
  · rw [State.lane_modLane_self]
  · split
    · rw [State.lane_modLane_self]
    · rw [State.setPool_lane, State.lane_modLane_self]

/-- No block comes into use by a WRITE's ACK (R85, R86). -/
theorem writeAcked_block_of_none {s : State} {b : BlockId} (h : s.pool.block b = none) (i : LaneId) (n : SlotId)
    (g : Segment) (chunk : List Byte) : (writeAcked s i n g chunk).pool.block b = none := by
  unfold writeAcked consumeBlock
  dsimp only
  split
  · exact h
  · split
    · exact h
    · exact Pool.block_leave_of_none h i _

section Effect

variable (s : State) (i : LaneId) (n : SlotId) (j : Job) (q : Request) (payload : List Byte)

/-- No block comes into use by the usual effect of a good answer (R85, R86). -/
theorem answerEffect_block_of_none {b : BlockId} (h : s.pool.block b = none) :
    (answerEffect s i n j q payload).pool.block b = none := by
  unfold answerEffect
  dsimp only
  split
  case h_9 =>
    split
    · exact h
    · exact writeAcked_block_of_none h i n _ _
  case h_3 | h_11 => split <;> exact h
  all_goals exact h

variable {s i}

/-- The usual effect of a good answer is not on the line, and leaves the lane in its state, but for START's (R37 to R42, R61
to R70). -/
theorem answerEffect_lineAnswered {m : Lane} (h : (s.lane i).LineAnswered m) :
    ((answerEffect s i n j q payload).lane i).LineAnswered m ∧
      ((s.lane i).step ≠ .detachStart → ((answerEffect s i n j q payload).lane i).state = (s.lane i).state) := by
  have kept : ∀ f : Lane → Lane, (f (s.lane i)).LineAnswered m ∧ (f (s.lane i)).state = (s.lane i).state →
      ((s.modLane i f).lane i).LineAnswered m ∧
        ((s.lane i).step ≠ .detachStart → ((s.modLane i f).lane i).state = (s.lane i).state) := by
    intro f hf
    rw [State.lane_modLane_self]
    exact ⟨hf.1, fun _ => hf.2⟩
  have hcursor := fun g len => h.advanceCursor g len
  obtain ⟨ho, hp, hr, hs, ht, hw⟩ := h
  have same : ((s.lane i).LineAnswered m) := ⟨ho, hp, hr, hs, ht, hw⟩
  unfold answerEffect
  dsimp only
  split
  case h_5 hst =>
    rw [State.lane_modLane_self]
    exact ⟨⟨rfl, hp, hr, hs, (congrArg Tx.orphaned ht).trans (Tx.orphaned_orphaned _), hw⟩, fun hne => absurd hst hne⟩
  case h_9 =>
    split
    · exact ⟨same, fun _ => rfl⟩
    · next g _ =>
      rw [writeAcked_lane]
      obtain ⟨⟨ho, hp, hr, hs, ht, hw⟩, hstate⟩ := hcursor g (q.payload.drop 4).length
      exact ⟨⟨ho, hp, hr, hs, ht, hw⟩, fun _ => hstate⟩
  case h_3 | h_11 =>
    split
    · exact kept _ ⟨⟨ho, hp, hr, hs, ht, hw⟩, rfl⟩
    · exact ⟨same, fun _ => rfl⟩
  case h_1 | h_2 | h_4 | h_6 | h_7 | h_8 | h_10 => exact kept _ ⟨⟨ho, hp, hr, hs, ht, hw⟩, rfl⟩
  all_goals exact ⟨same, fun _ => rfl⟩

end Effect

/-! ### The usual effect, request by request -/

section Requests

variable {s : State} {i : LaneId} {j : Job} (n : SlotId) (q : Request) (payload : List Byte)

/-- An ERASE's ACK reports the level (R107). -/
theorem answerEffect_erase (h : (s.lane i).step.request = some .erase) :
    ((answerEffect s i n j q payload).lane i).identity =
      (s.lane i).identity.map (fun d => { d with level := payload.getD 0 0 }) := by
  cases hst : (s.lane i).step <;> simp [hst, Step.request] at h <;> simp [answerEffect, hst, Lane.setLevel]

/-- A PROTECT's ACK confirms the level asked for (R107). -/
theorem answerEffect_protect (h : (s.lane i).step.request = some .protect) {level : BitVec 8}
    (hp : j.spec.params = .protect level) : ((answerEffect s i n j q payload).lane i).identity =
      (s.lane i).identity.map (fun d => { d with level := level }) := by
  cases hst : (s.lane i).step <;> simp [hst, Step.request] at h
  simp [answerEffect, hst, hp, Lane.setLevel]

/-- A WRITE's ACK feeds and counts the chunk (R65). -/
theorem answerEffect_write {k : Nat} {g : Segment} (hst : (s.lane i).step = .programWrite k) (hg : j.list[k]? = some g) :
    ((answerEffect s i n j q payload).lane i).crc = crc32Feed (s.lane i).crc (q.payload.drop 4) ∧
      ((answerEffect s i n j q payload).lane i).bytes = (s.lane i).bytes + (q.payload.drop 4).length := by
  have heffect : answerEffect s i n j q payload = writeAcked s i n g (q.payload.drop 4) := by
    simp [answerEffect, hst, hg]
  rw [heffect, writeAcked_lane]
  exact ⟨rfl, rfl⟩

/-- A DATA's bytes are counted (R68). -/
theorem answerEffect_read (h : (s.lane i).step.request = some .read) :
    ((answerEffect s i n j q payload).lane i).bytes = (s.lane i).bytes + payload.length := by
  cases hst : (s.lane i).step <;> simp [hst, Step.request] at h
  simp [answerEffect, hst]

/-- A HELLO is stored whole (R37, R39). -/
theorem answerEffect_identify (h : (s.lane i).step.request = some .identify) :
    ((answerEffect s i n j q payload).lane i).identity = some (parseIdentity payload) ∧
      ((answerEffect s i n j q payload).lane i).unlocked = !(parseIdentity payload).credentialRequired := by
  cases hst : (s.lane i).step <;> simp [hst, Step.request] at h <;> simp [answerEffect, hst, Lane.storeIdentity]

/-- The ACK to SET_RATE starts the gap (R39; log 24). -/
theorem answerEffect_setRate (h : (s.lane i).step.request = some .setRate) {p : AttachParams}
    (hp : j.spec.params = .attach p) : ((answerEffect s i n j q payload).lane i).rateGap = some p.targetRate := by
  cases hst : (s.lane i).step <;> simp [hst, Step.request] at h
  simp [answerEffect, hst, hp]

/-- The ACK to UNLOCK unlocks a lane that holds an identity record (R104). -/
theorem answerEffect_unlock (h : (s.lane i).step.request = some .unlock) :
    ((answerEffect s i n j q payload).lane i).unlocked = (s.lane i).identity.isSome := by
  cases hst : (s.lane i).step <;> simp [hst, Step.request] at h
  simp [answerEffect, hst]

/-- The ACK to START: the lane is RELEASED with its session ended (R42). -/
theorem answerEffect_start (hst : (s.lane i).step = .detachStart) :
    (answerEffect s i n j q payload).lane i = (s.lane i).enterReleased := by
  simp [answerEffect, hst]

end Requests

end Sys2Proof.Machine
end

section
/-! CERTIFICATES. Requests of aborted and image-failed jobs end their job on the lane (R89, R104, R107, R151, R153). -/

namespace Sys2Proof.Machine

/-- From `s` to `t` lane `i` has ended its only job with its request: nothing outstanding, pinned or queued, its line as it
was, no block newly in use, and Device Control and the other lanes as they were (R25, R56, R86). -/
structure SettlesLane (s t : State) (i : LaneId) : Prop where
  line : (t.lane i).LineAnswered (s.lane i)
  queue : (t.lane i).queue = []
  block : ∀ b : BlockId, (t.pool.block b).isSome = true → (s.pool.block b).isSome = true
  ctl : t.ctl = s.ctl
  others : ∀ k : LaneId, k ≠ i → t.lane k = s.lane k

/-- A good answer, if a HELLO one that names the record's device class, is taken as such (R9, R25, R39). -/
theorem takeFrame_goodAnswer {s : State} {i : LaneId} {n : SlotId} {j : Job} {q : Request} {kind : Byte} {payload : List Byte}
    (ho : (s.lane i).outstanding = some q) (hc : currentJob s i = some (n, j))
    (h : classify q (s.lane i).rate kind payload = .good)
    (hclass : q.kind = .identify → classChanged (s.lane i) payload = false) :
    takeFrame s i q.seq kind payload = resolveStep i (goodAnswer s i n j q payload) := by
  by_cases hk : q.kind = .identify
  · simp [takeFrame, ho, hc, h, hk, hclass hk]
  · exact takeFrame_good ho hc h hk

section Engaged

variable {s u : State} {i : LaneId} {n : SlotId} {j : Job} {q : Request} {chars payload : List Byte}

/-- A good answer of the right form, if a HELLO with the record's device class, has the effect and the verdict of
`goodAnswer` (R9, R25, R39). -/
theorem State.engaged.exec_goodAnswer (h : s.engaged i n j q) (hf : s.completes i chars q.seq q.kind.goodCode payload)
    (hgood : goodForm q (s.lane i).rate payload = true)
    (hclass : q.kind = .identify →
      (s.lane i).identity.map Identity.deviceClass = some (parseIdentity payload).deviceClass) {v : Verdict}
    (hv : goodAnswer (s.frameTaken i) i n j q payload = (answerEffect (s.acked i) i n j q payload, some v)) :
    exec (.frameReceived i chars) s = .next (resolveStep i (answerEffect (s.acked i) i n j q payload, some v)) := by
  have hsame : q.kind = .identify → classChanged ((s.frameTaken i).lane i) payload = false := fun hk => by
    rw [State.frameTaken_lane]
    simp [classChanged, hclass hk]
  rw [h.exec_frameReceived hf, takeFrame_goodAnswer h.outstanding_taken h.currentJob_taken
    (classify_good (by rw [State.frameTaken_lane]; exact hgood)) hsame, hv]

/-- A verdict on the job, after an effect `u` that leaves the line answered and brings no block into use, settles the lane
with it (R56, R86). -/
theorem State.engaged.settles (h : s.engaged i n j q) (hloc : LaneLocal i s u) (hkept : KeepsQueues s u)
    (hline : (u.lane i).LineAnswered (s.lane i)) (hblock : ∀ b, s.pool.block b = none → u.pool.block b = none) (v : Verdict) :
    SettlesLane s (resolveStep i (u, some v)) i ∧
      EndsOnlyJob s (resolveStep i (u, some v)) i n (u.lane i) ((u.lane i).result j.spec.params true v) := by
  obtain ⟨-, hq, hj, hres, -⟩ := h
  have hqueue : (u.lane i).queue = [n] := (hkept.queue i).trans hq
  have hslot : u.slot n = some j := (hkept.slot n).trans hj
  have hend := resolveStep_endsOnlyJob hloc hqueue hslot hres v
  have hlane := hend.lane
  refine ⟨⟨?_, by rw [hlane], fun b hb => ?_, hend.ctl, hend.others⟩, hend⟩
  · rw [hlane]
    exact ⟨hline.outstanding, hline.pinned, hline.readback, hline.sent, hline.tx, hline.power⟩
  · rw [Option.isSome_iff_ne_none] at hb ⊢
    intro hnone
    rw [resolveStep_onlyJob hqueue hslot, closeJob_pool] at hb
    exact hb (Pool.block_leaveAll_of_none (hblock b hnone) i)

theorem State.acked_keepsQueues (s : State) (i : LaneId) : KeepsQueues s (s.acked i) := by
  refine ⟨(State.acked_frame s i).1, fun k => ?_⟩
  by_cases hk : k = i
  · rw [hk, State.acked_lane]
    rfl
  · rw [(State.acked_local s i).2.2 k hk]

/-- A verdict after the usual effect of a good answer settles the lane (R25). -/
theorem State.engaged.settles_good (h : s.engaged i n j q) (payload : List Byte) (v : Verdict) :
    SettlesLane s (resolveStep i (answerEffect (s.acked i) i n j q payload, some v)) i ∧
      EndsOnlyJob s (resolveStep i (answerEffect (s.acked i) i n j q payload, some v)) i n
        ((answerEffect (s.acked i) i n j q payload).lane i)
        (((answerEffect (s.acked i) i n j q payload).lane i).result j.spec.params true v) := by
  refine h.settles ((State.acked_local s i).trans (answerEffect_local _ i n j q payload))
    ((State.acked_keepsQueues s i).trans (.answerEffect _ i n j q payload))
    (answerEffect_lineAnswered n j q payload (Lane.lineAnswered_acked s i)).1 (fun b hb => ?_) v
  refine answerEffect_block_of_none _ i n j q payload ?_
  rw [(State.acked_frame s i).2.1]
  exact hb

/-- A verdict on a refused request settles the lane (R12, R25). -/
theorem State.engaged.settles_refused (h : s.engaged i n j q) (r : NakReason) :
    SettlesLane s (resolveStep i (refuse (s.frameTaken i) i j q r)) i ∧
      EndsOnlyJob s (resolveStep i (refuse (s.frameTaken i) i j q r)) i n (({ s.lane i with rx := none } : Lane).refused q r)
        ((({ s.lane i with rx := none } : Lane).refused q r).result j.spec.params true (refusalVerdict j q r)) := by
  have hlane : (refuse (s.frameTaken i) i j q r).1.lane i = ({ s.lane i with rx := none } : Lane).refused q r := by
    rw [refuse_lane, State.frameTaken_lane]
  have hline : ((refuse (s.frameTaken i) i j q r).1.lane i).LineAnswered (s.lane i) := by
    rw [hlane]
    exact ⟨rfl, rfl, rfl, rfl, rfl, rfl⟩
  have hsettles := h.settles ((State.frameTaken_local s i).trans (refuse_local _ i j q r))
    (.trans (.modLane s i (f := fun l => { l with rx := none }) fun _ => rfl) (.refuse (s.frameTaken i) i j q r)) hline
    (fun b hb => by rw [refuse_pool]; exact hb) (refusalVerdict j q r)
  rw [hlane] at hsettles
  exact hsettles

/-- A NAK other than FRAME refuses a request other than IDENTIFY (R12, R37). -/
theorem State.engaged.exec_refused (h : s.engaged i n j q) {code : Byte} {r : NakReason}
    (hf : s.completes i chars q.seq 0x85 [code]) (hcode : NakReason.ofCode code = some r) (hr : r ≠ .frame)
    (hk : q.kind ≠ .identify) :
    exec (.frameReceived i chars) s = .next (resolveStep i (refuse (s.frameTaken i) i j q r)) := by
  rw [h.exec_frameReceived hf, takeFrame_refused h.outstanding_taken h.currentJob_taken (classify_nak hcode) hr hk]

/-- The ACK to START leaves the lane RELEASED and its job OK (R42, R153). -/
theorem State.engaged.ends_startAck (h : s.engaged i n j q) (hf : s.completes i chars q.seq 0x81 []) (hk : q.kind = .start)
    (hst : (s.lane i).step = .detachStart) (hi : j.imageFailed = none) :
    ∃ t : State, exec (.frameReceived i chars) s = .next t ∧ SettlesLane s t i ∧
      EndsOnlyJob s t i n ((s.acked i).lane i).enterReleased
        (((s.acked i).lane i).enterReleased.result j.spec.params true (Verdict.plain .ok)) := by
  have hcode : q.kind.goodCode = 0x81 := by rw [hk]; rfl
  have htaken : ((s.frameTaken i).lane i).step = .detachStart := by rw [State.frameTaken_lane]; exact hst
  have hacked : ((s.acked i).lane i).step = .detachStart := by rw [State.acked_lane]; exact hst
  have hsettles := h.settles_good [] (Verdict.plain .ok)
  rw [answerEffect_start n q [] hacked] at hsettles
  exact ⟨_, h.exec_goodAnswer (hcode ▸ hf) ((goodForm_iff q _ []).mpr (by rw [hk])) (by simp [hk])
    (goodAnswer_start hk htaken hi []), hsettles⟩

end Engaged

/-- Settles O46: the good answer, the NAK and the START, each by its effect on the lane and the verdict of the marks. -/
theorem markedJobsEndWithTheirRequest : Obligations.MarkedJobsEndWithTheirRequest := by
  intro s i n j q chars h hm hst _ marked settled
  have hmarked : ∀ (t : State) (l : Lane), EndsOnlyJob s t i n l (l.result j.spec.params true j.markVerdict) → marked t := by
    intro t l hend
    obtain ⟨hnak, hkind⟩ := j.markVerdict_unnamed
    refine ⟨_, hend.result, hnak, hkind, fun ha => ?_, fun ha => ?_⟩
    · simp only [Lane.result, Job.markVerdict_aborted ha]
      exact ⟨rfl, rfl⟩
    · simp only [Lane.result, Job.markVerdict_hostRead ha]
      exact ⟨(hostReadVerdict_fields j).1, fun g b e hi he => hostReadVerdict_addr hi he⟩
  have hsettled : ∀ t : State, SettlesLane s t i → settled t := fun t ht =>
    ⟨ht.line.outstanding, ht.queue, ht.line.pinned, ht.line.readback, ht.line.sent, ht.line.tx, ht.line.power, ht.block,
      ht.ctl, ht.others⟩
  have hacked := State.acked_lane s i
  have hreq : ∀ kind, q.kind = kind → ((s.acked i).lane i).step.request = some kind := by
    rintro _ rfl
    rw [hacked]
    exact hst
  refine ⟨fun payload hf hgood hk hclass => ?_, fun code r hf hcode hr hk hstart => ?_,
    fun hk hi => ⟨fun hf => ?_, fun code r hf hcode hr => ?_⟩⟩
  · have hexec := h.exec_goodAnswer hf hgood hclass (goodAnswer_marked hm hk payload)
    obtain ⟨hs, hend⟩ := h.settles_good payload j.markVerdict
    have hnotStart : ((s.acked i).lane i).step ≠ .detachStart := fun hd => by
      have hstart := hreq _ rfl
      rw [hd] at hstart
      exact hk (Option.some.inj hstart).symm
    refine ⟨_, hexec, hmarked _ _ hend, hsettled _ hs, ?_⟩
    have hready := (answerEffect_lineAnswered n j q payload (Lane.lineAnswered_acked s i)).2 hnotStart
    have herase := fun hq => answerEffect_erase (j := j) n q payload (hreq .erase hq)
    have hprotect := fun level hq (hp : j.spec.params = .protect level) =>
      answerEffect_protect n q payload (hreq .protect hq) hp
    have hwrite := fun k g hk (hg : j.list[k]? = some g) => answerEffect_write (s := s.acked i) (i := i) n q payload hk hg
    have hread := fun hq => answerEffect_read (j := j) n q payload (hreq .read hq)
    have hidentify := fun hq => answerEffect_identify (j := j) n q payload (hreq .identify hq)
    have hsetRate := fun p hq (hp : j.spec.params = .attach p) => answerEffect_setRate n q payload (hreq .setRate hq) hp
    have hunlock := fun hq => answerEffect_unlock (j := j) n q payload (hreq .unlock hq)
    rw [hacked] at hready herase hprotect hwrite hread hunlock
    rw [hend.lane]
    exact ⟨hready, herase, hprotect, hwrite, hread, hidentify, hsetRate, hunlock⟩
  · have hexec := h.exec_refused hf hcode hr hk
    obtain ⟨hs, hend⟩ := h.settles_refused r
    rw [refusalVerdict_marked hm hstart] at hend
    refine ⟨_, hexec, hmarked _ _ hend, hsettled _ hs, ?_⟩
    rw [hend.lane]
    refine ⟨rfl, rfl, ?_⟩
    by_cases hauth : q.kind = .unlock ∧ r = .auth <;> simp [Lane.refused, hauth]
  · rw [hk] at hst
    obtain ⟨t, hexec, hs, hend⟩ := h.ends_startAck hf hk (Step.eq_detachStart hst) hi
    refine ⟨t, hexec, hsettled t hs, ?_, ?_⟩
    · rw [outcomeOf_eq_resultOf]
      exact congrArg _ hend.result
    · rw [hend.lane]
      exact ⟨rfl, rfl, rfl, rfl⟩
  · have hexec := h.exec_refused hf hcode hr (by simp [hk])
    obtain ⟨hs, hend⟩ := h.settles_refused r
    rw [refusalVerdict_start hk hi] at hend
    refine ⟨_, _, hexec, hsettled _ hs, hend.result, rfl, rfl, rfl, ?_⟩
    rw [hend.lane]
    rfl

end Sys2Proof.Machine
end

section
/-! SUPPORT. Pin counts and the lanes that pin (R96, R101): what the operations of a lane, of the Job Manager and of the
Completion Writer leave of them. -/

namespace Sys2Proof.Machine

/-! ### Pin counts and pinned entries -/

/-- All that R96 and R101 say of pins: the pin count of each entry, and the entry that each lane pins. -/
def State.pinView (s : State) : (CredId → Nat) × (LaneId → Option CredId) :=
  (fun c => (s.cred c).pins, fun i => (s.lane i).pinned)

theorem pinView_ext {s t : State} (hc : ∀ c, (t.cred c).pins = (s.cred c).pins)
    (hl : ∀ i, (t.lane i).pinned = (s.lane i).pinned) : t.pinView = s.pinView :=
  Prod.ext (funext hc) (funext hl)

/-- The same lanes and credentials show the same pins. -/
theorem pinView_congr {s t : State} (hl : t.lanes = s.lanes) (hc : t.creds = s.creds) : t.pinView = s.pinView :=
  pinView_ext (fun c => by simp [State.cred, hc]) fun i => by rw [State.lane_congr hl i]

theorem pins_of_pinView {s t : State} (h : t.pinView = s.pinView) (c : CredId) : (t.cred c).pins = (s.cred c).pins :=
  congrFun (congrArg Prod.fst h) c

theorem pinned_of_pinView {s t : State} (h : t.pinView = s.pinView) (i : LaneId) :
    (t.lane i).pinned = (s.lane i).pinned := congrFun (congrArg Prod.snd h) i

/-! ### Operations that touch no lane and no credential -/

section Frames

variable (s : State)

@[simp] theorem beginCompletion_frame :
    (beginCompletion s).lanes = s.lanes ∧ (beginCompletion s).creds = s.creds := by
  unfold beginCompletion
  repeat' split
  all_goals exact ⟨rfl, rfl⟩

@[simp] theorem haltCommand_frame : (haltCommand s).lanes = s.lanes ∧ (haltCommand s).creds = s.creds := by
  unfold haltCommand enterQuiescing
  split <;> simp

@[simp] theorem enableCommand_frame : (enableCommand s).lanes = s.lanes ∧ (enableCommand s).creds = s.creds := by
  unfold enableCommand
  split <;> simp

@[simp] theorem applySubmit_creds (ring index : Nat) : (applySubmit s ring index).creds = s.creds := by
  unfold applySubmit
  split
  · rfl
  · split <;> rfl

@[simp] theorem configAccepted_frame (c : ConfigBlock) :
    (configAccepted s c).lanes = s.lanes ∧ (configAccepted s c).creds = s.creds := by
  have hkept : ∀ t r, (applyKept s.ctl.keptSubmit t r).lanes = t.lanes ∧
      (applyKept s.ctl.keptSubmit t r).creds = t.creds := by
    intro t r
    unfold applyKept
    split
    · exact ⟨rfl, rfl⟩
    · exact ⟨applySubmit_lanes _ _, applySubmit_creds t _ _⟩
  have hlanes : (allRings.foldl (applyKept s.ctl.keptSubmit) (configured s c)).lanes = s.lanes :=
    foldl_keeps State.lanes _ (fun t r => (hkept t r).1) _ _
  have hcreds : (allRings.foldl (applyKept s.ctl.keptSubmit) (configured s c)).creds = s.creds :=
    foldl_keeps State.creds _ (fun t r => (hkept t r).2) _ _
  unfold configAccepted enterQuiescing
  dsimp only
  split <;> simp [hlanes, hcreds]

end Frames

/-! ### Changes of a lane that leave its pin -/

/-- The phases of a lane, its requests and its answers leave its pin, which the release alone clears (R101). -/
@[simp] theorem Lane.pinned_frame (l : Lane) :
    l.endRequest.pinned = l.pinned ∧ l.startJob.pinned = l.pinned ∧ l.enterReleased.pinned = l.pinned
      ∧ l.enterOff.pinned = l.pinned ∧ l.spendAttempt.pinned = l.pinned ∧ l.powerOff.pinned = l.pinned
      ∧ (∀ code, (l.enterFaulted code).pinned = l.pinned) ∧ (∀ level, (l.setLevel level).pinned = l.pinned)
      ∧ (∀ d, (l.storeIdentity d).pinned = l.pinned) ∧ (∀ pulse, (l.enterResetting pulse).pinned = l.pinned)
      ∧ (∀ rate, (l.enterTraining rate).pinned = l.pinned)
      ∧ (∀ k p, (l.startRequest k p).pinned = l.pinned) ∧ (∀ q, (l.retransmit q).pinned = l.pinned) := by
  refine ⟨rfl, rfl, rfl, rfl, rfl, rfl, ?_⟩
  exact ⟨fun _ => rfl, fun _ => rfl, fun _ => rfl, fun _ => rfl, fun _ => rfl, fun _ _ => rfl, fun _ => rfl⟩

@[simp] theorem Lane.placeCheck_pinned (l : Lane) : l.placeCheck.pinned = l.pinned := by rw [Lane.placeCheck_eq]

@[simp] theorem Lane.advanceCursor_pinned (l : Lane) (g : Segment) (len : Nat) :
    (l.advanceCursor g len).pinned = l.pinned := by
  unfold Lane.advanceCursor
  split
  · rfl
  · split <;> rfl

/-! ### Operations that leave the pins -/

section Leaves

variable (s : State)

@[simp] theorem State.modLane_pinView (i : LaneId) {f : Lane → Lane}
    (hf : (f (s.lane i)).pinned = (s.lane i).pinned) : (s.modLane i f).pinView = s.pinView := by
  refine pinView_ext (fun _ => rfl) fun k => ?_
  by_cases hk : k = i
  · rw [hk, State.lane_modLane_self, hf]
  · rw [State.lane_modLane_ne s hk]

@[simp] theorem State.modSlot_pinView (n : SlotId) (f : Job → Job) : (s.modSlot n f).pinView = s.pinView :=
  pinView_congr (by simp) (by simp)

@[simp] theorem State.setSlot_pinView (n : SlotId) (j : Option Job) : (s.setSlot n j).pinView = s.pinView := rfl

@[simp] theorem State.setPool_pinView (p : Pool) : (s.setPool p).pinView = s.pinView := rfl

@[simp] theorem State.unblockLane_pinView (i : LaneId) : (s.unblockLane i).pinView = s.pinView := pinView_congr rfl rfl

@[simp] theorem retireIfDone_pinView (n : SlotId) : (retireIfDone s n).pinView = s.pinView :=
  pinView_congr (by simp) (by simp)

/-- A candidate's entry clears a pending event at most (R49). -/
@[simp] theorem enterHolding_pinView (c : Candidate) : (enterHolding s c).pinView = s.pinView := by
  refine pinView_ext (fun d => by simp [State.cred]) fun i => ?_
  rcases enterHolding_lane s c i with h | ⟨-, h⟩ <;> rw [h]

@[simp] theorem offer_pinView (c : Candidate) : (offer s c).pinView = s.pinView := by
  unfold offer
  split
  · exact enterHolding_pinView s c
  · exact pinView_congr (by simp) (by simp)

@[simp] theorem promote_pinView : (promote s).pinView = s.pinView := by
  refine pinView_ext (fun d => by simp [State.cred]) fun i => ?_
  rcases promote_lane s i with h | h <;> rw [h]

@[simp] theorem postIntake_pinView (c : IntakeCompletion) : (postIntake s c).pinView = s.pinView :=
  pinView_ext (fun d => by simp [State.cred]) fun i => by rw [postIntake_lane]

variable (i : LaneId)

@[simp] theorem switchOff_pinView : (switchOff s i).pinView = s.pinView := by
  refine pinView_ext (fun c => by simp [State.cred]) fun k => ?_
  rw [switchOff_lane]
  split
  · next h => rw [h.1]; rfl
  · rfl

@[simp] theorem send_pinView (k : ReqKind) (p : List Byte) : (send s i k p).pinView = s.pinView := by
  unfold send
  split <;> simp

@[simp] theorem retransmitAtOnce_pinView : (retransmitAtOnce s i).pinView = s.pinView := by
  unfold retransmitAtOnce
  split
  · rfl
  · split <;> simp

@[simp] theorem sendChunk_pinView (n : SlotId) (g : Segment) : (sendChunk s i n g).pinView = s.pinView := by
  unfold sendChunk
  repeat' split
  all_goals simp

@[simp] theorem programErase_pinView (n : SlotId) (k : Nat) (g : Segment) :
    (programErase s i n k g).pinView = s.pinView := by
  unfold programErase
  dsimp only
  split <;> simp

/-- Of the steps in hand the credential step alone pins an entry (R101). -/
theorem proceed_pinView (h : (s.lane i).step ≠ .attachCredential) : (proceed s i).1.pinView = s.pinView := by
  unfold proceed
  split
  · rfl
  dsimp only
  split
  case h_8 hst => exact absurd hst h
  case h_7 | h_9 | h_11 | h_12 | h_13 | h_14 | h_15 | h_16 | h_17 => split <;> simp
  all_goals simp

@[simp] theorem enterStep_pinView {st : Step} (h : st ≠ .attachCredential) : (enterStep s i st).1.pinView = s.pinView := by
  unfold enterStep
  rw [proceed_pinView _ i (by simpa using h)]
  simp

theorem segmentStep_ne_attachCredential (j : JobSpec) (k : Nat) : segmentStep j k ≠ .attachCredential := by
  unfold segmentStep
  split <;> simp

@[simp] theorem fillWindow_pinView (n : SlotId) (j : Job) : (fillWindow s i n j).pinView = s.pinView := rfl

@[simp] theorem firstStep_pinView (n : SlotId) (j : Job) : (firstStep s i n j).1.pinView = s.pinView := by
  unfold firstStep
  split
  case h_1 => split <;> simp
  case h_2 =>
    split
    · rfl
    · rw [enterStep_pinView _ i (segmentStep_ne_attachCredential _ _), fillWindow_pinView]
  all_goals simp

@[simp] theorem sessionJobTakeUp_pinView (n : SlotId) (j : Job) : (sessionJobTakeUp s i n j).1.pinView = s.pinView := by
  unfold sessionJobTakeUp
  repeat' split
  all_goals simp

@[simp] theorem becomeCurrent_pinView (n : SlotId) : (becomeCurrent s i n).pinView = s.pinView := by simp [becomeCurrent]

@[simp] theorem closeJob_pinView (n : SlotId) (r : LaneResult) : (closeJob s i n r).pinView = s.pinView := by
  unfold closeJob
  dsimp only
  rw [retireIfDone_pinView, State.unblockLane_pinView, State.modLane_pinView _ i rfl, State.setPool_pinView,
    State.modSlot_pinView]

@[simp] theorem conclude_pinView (n : SlotId) (v : Verdict) : (conclude s i n v).pinView = s.pinView := by
  unfold conclude
  split <;> simp

@[simp] theorem removeJob_pinView (n : SlotId) (j : Job) (v : Verdict) : (removeJob s i n j v).pinView = s.pinView := by
  simp [removeJob]

@[simp] theorem raiseEvent_pinView (code : FaultCode) : (raiseEvent s i code).pinView = s.pinView := by simp [raiseEvent]

@[simp] theorem writeAcked_pinView (n : SlotId) (g : Segment) (c : List Byte) :
    (writeAcked s i n g c).pinView = s.pinView := by
  unfold writeAcked consumeBlock
  dsimp only
  repeat' split
  all_goals simp

@[simp] theorem answerEffect_pinView (n : SlotId) (j : Job) (q : Request) (p : List Byte) :
    (answerEffect s i n j q p).pinView = s.pinView := by
  unfold answerEffect
  dsimp only
  split
  case h_3 | h_9 | h_11 => split <;> simp
  all_goals simp

@[simp] theorem nextSegment_pinView (j : Job) (k : Nat) : (nextSegment s i j k).1.pinView = s.pinView := by
  unfold nextSegment
  dsimp only
  split
  · rw [enterStep_pinView _ i (segmentStep_ne_attachCredential _ _)]
    simp
  · simp

@[simp] theorem segmentWritten_pinView (j : Job) (k : Nat) (g : Segment) :
    (segmentWritten s i j k g).1.pinView = s.pinView := by
  unfold segmentWritten
  repeat' split
  all_goals simp

@[simp] theorem readbackWritten_pinView (j : Job) (off : Nat) : (readbackWritten s i j off).1.pinView = s.pinView := by
  unfold readbackWritten
  dsimp only
  repeat' split
  all_goals simp

@[simp] theorem joinQueues_pinView (n : SlotId) (l : List LaneId) : (l.foldl (joinQueue n) s).pinView = s.pinView :=
  foldl_keeps State.pinView (joinQueue n) (fun t k => State.modLane_pinView t k rfl) l s

@[simp] theorem completeRecord_pinView (r : HeldRecord) : (completeRecord s r).pinView = s.pinView := by
  have hrest : ∀ t irq, (coalesce t irq).pinView = t.pinView := by
    intro t irq
    unfold coalesce
    split
    · rfl
    · dsimp only
      split <;> rfl
  have hfree : ∀ t, (freeRecordSlot t r).pinView = t.pinView := by
    intro t
    cases r with
    | job n => exact pinView_congr (by simp [freeRecordSlot]) (by simp [freeRecordSlot])
    | intake _ => rfl
    | event _ _ => rfl
  unfold completeRecord
  rw [hrest, hfree, promote_pinView]
  rfl

end Leaves

end Sys2Proof.Machine
end

section
/-! SUPPORT. A pin taken and a pin released change the count of their entry alone, and the operations that take or release
one keep every count equal to the number of lanes that pin its entry (R96, R101, R103). -/

namespace Sys2Proof.Machine

/-! ### One lane's pin changes -/

/-- Where one lane's pin changes, the lanes that pin an entry are one more or one fewer as that lane is among them. -/
theorem countPinned_of_local {s t : State} {i : LaneId} (h : ∀ k, k ≠ i → (t.lane k).pinned = (s.lane k).pinned)
    (c : CredId) :
    allLanes.countP (fun k => (t.lane k).pinned == some c) + ((s.lane i).pinned == some c).toNat =
      allLanes.countP (fun k => (s.lane k).pinned == some c) + ((t.lane i).pinned == some c).toNat :=
  countP_add_toNat (p := fun k => (t.lane k).pinned == some c) (q := fun k => (s.lane k).pinned == some c) allLanes
    (List.nodup_finRange 16) (List.mem_finRange i) fun k hk => by rw [h k hk]

/-- An entry that a lane pins has a pin count of at least 1 (R96). -/
theorem State.pinsMatch.pins_pos {s : State} (hs : s.pinsMatch) {i : LaneId} {c : CredId}
    (h : (s.lane i).pinned = some c) : 0 < (s.cred c).pins := by
  rw [hs c]
  exact List.countP_pos_iff.mpr ⟨i, List.mem_finRange i, by simp [h]⟩

/-- The counts go on matching where one lane's pin changes and each count rises by what that lane gains and falls by what
it loses. -/
theorem State.pinsMatch.of_local {s t : State} (hs : s.pinsMatch) {i : LaneId}
    (hl : ∀ k, k ≠ i → (t.lane k).pinned = (s.lane k).pinned)
    (hc : ∀ c, (t.cred c).pins + ((s.lane i).pinned == some c).toNat =
      (s.cred c).pins + ((t.lane i).pinned == some c).toNat) : t.pinsMatch := by
  intro c
  have hcount := countPinned_of_local hl c
  have hold := hs c
  have hnew := hc c
  omega

/-- The pin count of an entry once entry `c` is changed. -/
theorem State.modCred_pins (s : State) (c d : CredId) (f : Credential → Credential) :
    ((s.modCred c f).cred d).pins = if c = d then (f (s.cred d)).pins else (s.cred d).pins := by
  split
  · next h => subst h; rw [State.cred_modCred_self]
  · next h => rw [State.cred_modCred_ne s (Ne.symm h)]

/-! ### Operations that keep the counts matching -/

/-- From `s` to `t` pin counts that match the lanes that pin go on matching. -/
def KeepsPins (s t : State) : Prop := s.pinsMatch → t.pinsMatch

namespace KeepsPins

theorem refl (s : State) : KeepsPins s s := id

theorem trans {s t u : State} (h : KeepsPins s t) (k : KeepsPins t u) : KeepsPins s u := k ∘ h

/-- The same counts and pins match alike. -/
theorem of_pinView {s t : State} (h : t.pinView = s.pinView) : KeepsPins s t := by
  intro hs c
  simp only [pins_of_pinView h, pinned_of_pinView h]
  exact hs c

theorem foldl {α : Type} {f : State → α → State} (hf : ∀ s a, KeepsPins s (f s a)) (l : List α) (s : State) :
    KeepsPins s (l.foldl f s) := fun hs => List.foldlRecOn l f hs fun t ht a _ => hf t a ht

/-! ### A pin taken, a pin released -/

/-- A lane without a pin takes one on entry `c`, whose count rises by one (R101). -/
theorem takePin {s : State} {i : LaneId} (h : (s.lane i).pinned = none) (c : CredId) :
    KeepsPins s ((s.modCred c (fun e => { e with pins := e.pins + 1 })).modLane i
      (fun l => { l with pinned := some c })) := by
  refine fun hs => hs.of_local (i := i) (fun k hk => by rw [State.lane_modLane_ne _ hk, State.modCred_lane]) fun d => ?_
  rw [State.modLane_cred, State.modCred_pins, State.lane_modLane_self, h]
  by_cases hcd : c = d
  · simp [hcd]
  · simp [hcd]

/-- The pin that a lane releases is among those counted, so its entry's count falls by one (R101). -/
theorem releasePin (s : State) (i : LaneId) : KeepsPins s (releasePin s i) := by
  refine fun hs => hs.of_local (i := i) (fun k hk => by rw [releasePin_lane, if_neg hk]) fun d => ?_
  rw [releasePin_lane, if_pos rfl]
  unfold Machine.releasePin
  split
  · next hp => simp [hp]
  · next c hp =>
    have hpos := hs.pins_pos hp
    rw [State.modLane_cred, State.modCred_pins, hp]
    by_cases hcd : c = d
    · subst hcd
      simp
      omega
    · simp [hcd]

/-- A pin released, and a change of the lane that leaves its pin. -/
theorem released (s : State) (i : LaneId) {f : Lane → Lane} (hf : ∀ l, (f l).pinned = l.pinned) :
    KeepsPins s ((Machine.releasePin s i).modLane i f) :=
  (releasePin s i).trans (of_pinView (State.modLane_pinView _ i (hf _)))

/-! ### Taking up a job -/

theorem attachTakeUp (s : State) (i : LaneId) (p : AttachParams) : KeepsPins s (attachTakeUp s i p) := by
  refine released s i fun l => ?_
  split <;> rfl

theorem detachOff (s : State) (i : LaneId) : KeepsPins s (detachOff s i) :=
  (released s i (f := Lane.enterOff) fun _ => rfl).trans (of_pinView (switchOff_pinView _ i))

/-- A job is taken up with a pin released, where an ATTACH or a DETACH ends a session, or without a change of pins. -/
theorem takeUp (s : State) (i : LaneId) (n : SlotId) : KeepsPins s (takeUp s i n).1 := by
  unfold Machine.takeUp
  split
  · exact refl s
  have hstart : KeepsPins s (s.modLane i Lane.startJob) := of_pinView (by simp)
  dsimp only
  split
  case h_1 => exact hstart.trans (attachTakeUp _ i _)
  case h_2 =>
    split
    · split
      · exact of_pinView (by simp)
      · exact hstart
    · exact hstart.trans (detachOff _ i)
  all_goals exact of_pinView (by simp)

/-- However many jobs end at once (R58). -/
theorem settle (fuel : Nat) (s : State) (i : LaneId) : KeepsPins s (settle fuel s i) := by
  induction fuel generalizing s with
  | zero => exact refl s
  | succ fuel ih =>
    unfold Machine.settle
    split
    · exact refl s
    next n _ _ =>
    have hcur : KeepsPins s (becomeCurrent s i n) := of_pinView (by simp)
    have htake := hcur.trans (takeUp (becomeCurrent s i n) i n)
    dsimp only
    split
    · exact hcur
    split
    · next heq => rw [heq] at htake; exact htake
    · next heq =>
      rw [heq] at htake
      exact htake.trans ((of_pinView (conclude_pinView _ i n _)).trans (ih _))

theorem nextJob (s : State) (i : LaneId) : KeepsPins s (nextJob s i) := settle _ s i

theorem finishLane (s : State) (i : LaneId) (v : Verdict) : KeepsPins s (finishLane s i v) := by
  unfold Machine.finishLane
  split
  · exact refl s
  · exact (of_pinView (conclude_pinView s i _ v)).trans (nextJob _ i)

/-- An operation of a lane's engine, brought to its end. -/
theorem resolveStep {s : State} {p : Stepped} (h : KeepsPins s p.1) (i : LaneId) : KeepsPins s (resolveStep i p) := by
  unfold Machine.resolveStep
  split
  · exact h
  · exact h.trans (finishLane _ i _)

/-! ### Lane faults -/

/-- A lane fault releases the lane's pin, but on a lane already FAULTED (R44, R47, R101). -/
theorem faultLane (s : State) (i : LaneId) (code : FaultCode) (refused : Bool) :
    KeepsPins s (faultLane s i code refused) := by
  have hfaulted : KeepsPins s (if code.isSupply then switchOff ((Machine.releasePin s i).modLane i
      (fun k => k.enterFaulted code)) i else (Machine.releasePin s i).modLane i (fun k => k.enterFaulted code)) := by
    have hpin : KeepsPins s ((Machine.releasePin s i).modLane i (fun k => k.enterFaulted code)) :=
      released s i fun _ => rfl
    split
    · exact hpin.trans (of_pinView (switchOff_pinView _ i))
    · exact hpin
  unfold Machine.faultLane
  split
  · split
    · exact of_pinView (switchOff_pinView s i)
    · exact refl s
  · dsimp only
    split
    · exact hfaulted.trans ((of_pinView (closeJob_pinView _ i _ _)).trans (nextJob _ i))
    · exact hfaulted.trans (of_pinView (raiseEvent_pinView _ i code))

theorem laneFault (s : State) (i : LaneId) (code : FaultCode) : KeepsPins s (laneFault s i code) :=
  faultLane s i code false

/-! ### The credential step -/

section Unpinned

variable {s : State} {i : LaneId} (h : (s.lane i).pinned = none)
include h

/-- The credential step pins an entry for a lane that pins none (R101, R103). -/
theorem credentialStep (sel : Selector) : KeepsPins s (credentialStep s i sel).1 := by
  unfold Machine.credentialStep
  split
  · exact refl s
  split
  · exact refl s
  split
  · exact refl s
  split
  · exact refl s
  split
  · exact (takePin h _).trans (of_pinView (send_pinView _ i _ _))
  · exact refl s

theorem unlockDecision (p : AttachParams) : KeepsPins s (unlockDecision s i p).1 := by
  have hstep : ∀ sel, KeepsPins s
      (Machine.credentialStep (s.modLane i (fun l => { l with step := .attachCredential })) i sel).1 := fun sel =>
    .trans (of_pinView (State.modLane_pinView s i rfl)) (credentialStep (by rwa [State.lane_modLane_self]) sel)
  unfold Machine.unlockDecision
  split
  · exact refl s
  split
  · exact refl s
  split
  · exact refl s
  · exact hstep _
  · exact hstep _

theorem rateDecision (p : AttachParams) : KeepsPins s (rateDecision s i p).1 := by
  unfold Machine.rateDecision
  split
  · exact refl s
  split
  · exact unlockDecision h p
  split
  · exact refl s
  · exact of_pinView (by simp)

/-- What the step in hand calls for (R33, R103). -/
theorem proceed : KeepsPins s (proceed s i).1 := by
  by_cases hst : (s.lane i).step = .attachCredential
  · unfold Machine.proceed
    split
    · exact refl s
    dsimp only
    rw [hst]
    dsimp only
    split
    · exact credentialStep h _
    · exact refl s
  · exact of_pinView (proceed_pinView s i hst)

/-! ### Answers -/

/-- Of the ways on after a good answer those of an ATTACH alone may pin an entry (R38, R40). -/
theorem afterAnswer (n : SlotId) (j : Job) (b : Lane) (q : Request) (p : List Byte) :
    KeepsPins s (afterAnswer s i n j b q p).1 := by
  unfold Machine.afterAnswer
  dsimp only
  split
  case h_1 =>
    split
    · exact rateDecision h _
    · exact refl s
  case h_2 =>
    split
    · exact unlockDecision h _
    · exact refl s
  case h_9 =>
    split
    · exact refl s
    have hfill : ∀ c : Prop, ∀ _ : Decidable c, (if c then s else fillWindow s i n j).pinView = s.pinView := by
      intro c _
      split <;> rfl
    split
    · exact of_pinView (by rw [enterStep_pinView _ i (by simp), hfill])
    · exact of_pinView (by rw [segmentWritten_pinView, hfill])
  case h_7 | h_10 | h_11 =>
    repeat' split
    all_goals exact of_pinView (by simp)
  all_goals exact of_pinView (by simp)

end Unpinned

/-- A good answer releases the pin of its UNLOCK, so that the lane pins none when its job goes on (R25, R101). -/
theorem goodAnswer (s : State) (i : LaneId) (n : SlotId) (j : Job) (q : Request) (p : List Byte) :
    KeepsPins s (goodAnswer s i n j q p).1 := by
  have heffect : KeepsPins s (answerEffect (s.answered i) i n j q p) :=
    (released s i (f := Lane.endRequest) fun _ => rfl).trans (of_pinView (answerEffect_pinView _ i n j q p))
  have hpin : ((answerEffect (s.answered i) i n j q p).lane i).pinned = none := by
    rw [pinned_of_pinView (answerEffect_pinView _ i n j q p), State.answered_lane]
  unfold Machine.goodAnswer
  dsimp only
  split
  · exact heffect
  split
  · exact heffect
  · exact heffect.trans (afterAnswer hpin n j _ q p)

theorem refuse (s : State) (i : LaneId) (j : Job) (q : Request) (r : NakReason) : KeepsPins s (refuse s i j q r).1 := by
  have hrefused : KeepsPins s ((Machine.releasePin s i).modLane i (fun l => { l.endRequest with
      lastRefusal := some { reason := r, kind := q.kind, addr := requestAddr q.kind q.payload } })) :=
    released s i fun _ => rfl
  unfold Machine.refuse
  dsimp only
  split
  · exact hrefused.trans (of_pinView (State.modLane_pinView _ i rfl))
  · exact hrefused

theorem takeWait (s : State) (i : LaneId) (q : Request) (estimate : Nat) : KeepsPins s (takeWait s i q estimate) := by
  unfold Machine.takeWait
  split
  · exact laneFault s i _
  · exact of_pinView (by simp)

/-- A good frame, whatever it answers (R9). -/
theorem takeFrame (s : State) (i : LaneId) (seq kind : Byte) (payload : List Byte) :
    KeepsPins s (takeFrame s i seq kind payload) := by
  unfold Machine.takeFrame
  split
  · split
    · exact refl s
    split
    · exact laneFault s i _
    · exact takeWait s i _ _
    · split
      · exact of_pinView (by simp)
      split
      · exact faultLane s i _ _
      · exact resolveStep (refuse s i _ _ _) i
    · split
      · exact laneFault s i _
      · exact resolveStep (goodAnswer s i _ _ _ _) i
  · exact refl s

/-! ### Conversion results -/

theorem takeCheck (s : State) (i : LaneId) (mv : Nat) : KeepsPins s (takeCheck s i mv) := by
  unfold Machine.takeCheck
  split
  · have hcount : KeepsPins s (s.modLane i (fun l => { l with checkCount := l.checkCount + 1 })) :=
      of_pinView (State.modLane_pinView s i rfl)
    dsimp only
    split
    · repeat' split
      all_goals exact of_pinView (by simp)
    split
    · exact hcount.trans (laneFault _ i _)
    · exact of_pinView (by simp)
  · exact refl s

theorem takeSupervise (s : State) (i : LaneId) (mv : Nat) : KeepsPins s (takeSupervise s i mv) := by
  unfold Machine.takeSupervise
  split
  · exact of_pinView (by simp)
  split
  · exact of_pinView (by simp)
  · exact .trans (of_pinView (State.modLane_pinView s i rfl)) (laneFault _ i _)

/-! ### Jobs placed, aborted, and failed by their image -/

theorem placeLaneJob (s : State) (n : SlotId) (j : Job) : KeepsPins s (placeLaneJob s n j) := by
  unfold Machine.placeLaneJob
  refine .trans (of_pinView ?_) (foldl nextJob _ _)
  rw [joinQueues_pinView, State.setSlot_pinView]

theorem place (s : State) (n : SlotId) : KeepsPins s (place s n) := by
  unfold Machine.place
  split
  · exact refl s
  next j _ =>
  have hring : KeepsPins s (s.modRing j.ring (fun r => { r with inIntake := false })) := of_pinView rfl
  dsimp only
  split
  case h_1 =>
    unfold placeBarrier
    dsimp only
    split
    · exact of_pinView (pinView_congr (by simp) (by simp))
    · exact of_pinView rfl
  case h_9 | h_10 | h_11 => exact hring
  all_goals exact hring.trans (placeLaneJob _ n j)

theorem examine (s : State) (r : RingId) (j : JobSpec) : KeepsPins s (examine s r j) := by
  unfold Machine.examine
  split
  · exact of_pinView rfl
  split
  · unfold claim
    dsimp only
    split
    · exact of_pinView rfl
    · refine .trans (of_pinView ?_) (place _ _)
      rfl
  · exact of_pinView rfl

/-- An ATTACH aborted before identity holds no pin, and one held would be released (R101, R152). -/
theorem abortBeforeIdentity (s : State) (i : LaneId) : KeepsPins s (abortBeforeIdentity s i) := by
  have hoff : KeepsPins s ((Machine.releasePin s i).modLane i (fun l => { l.enterOff with tx := .idle })) :=
    released s i fun _ => rfl
  exact (hoff.trans (of_pinView (switchOff_pinView _ i))).trans (finishLane _ i _)

theorem abortLane (n : SlotId) (s : State) (i : LaneId) : KeepsPins s (abortLane n s i) := by
  unfold Machine.abortLane
  split
  · exact refl s
  split
  · exact refl s
  split
  · exact of_pinView (by simp)
  split
  · exact abortBeforeIdentity s i
  split
  · exact refl s
  · exact finishLane s i _

theorem abortJob (s : State) (n : SlotId) (j : Job) : KeepsPins s (abortJob s n j) := by
  unfold Machine.abortJob
  split
  · exact refl s
  · exact of_pinView rfl
  · exact of_pinView (pinView_congr (by simp) (by simp))
  · exact foldl (abortLane n) _ s
  · exact .trans (of_pinView (State.setSlot_pinView s n _)) (foldl (abortLane n) _ _)

theorem abortLookup (s : State) (own : IntakeCompletion) (r : RingId) (tag : BitVec 16) :
    KeepsPins s (abortLookup s own r tag) := by
  have hpost : ∀ c, KeepsPins s (postIntake s c) := fun c => of_pinView (postIntake_pinView s c)
  unfold Machine.abortLookup
  split
  · exact hpost _
  split
  · exact hpost _
  split
  · exact (hpost _).trans (abortJob _ _ _)
  · exact hpost _

theorem imageFailedLane (n : SlotId) (s : State) (i : LaneId) : KeepsPins s (imageFailedLane n s i) := by
  unfold Machine.imageFailedLane
  split
  · exact refl s
  split
  · exact finishLane s i _
  · exact refl s

theorem imageFailed (s : State) (n : SlotId) (g b : Nat) : KeepsPins s (imageFailed s n g b) := by
  unfold Machine.imageFailed
  split
  · exact refl s
  split
  · exact refl s
  · exact .trans (of_pinView (State.setSlot_pinView s n _)) (foldl (imageFailedLane n) _ _)

end KeepsPins

end Sys2Proof.Machine
end

section
/-! CERTIFICATES. Every command keeps the pin count of every entry equal to the number of lanes that pin it (R96, R101): the
commands that may take or release a pin, those of the Credential Table, and those that leave every pin. -/

namespace Sys2Proof.Machine

/-- Wherever a command leads on, pin counts that matched go on matching. -/
def LeadsKeepingPins (s : State) (r : Result) : Prop := ∀ t : State, r = .next t → KeepsPins s t

theorem KeepsPins.leads {s t : State} (h : KeepsPins s t) : LeadsKeepingPins s (.next t) := by
  intro u hu
  obtain rfl : t = u := by simpa using hu
  exact h

theorem leads_same (s : State) : LeadsKeepingPins s (.next s) := (KeepsPins.refl s).leads

theorem leads_of_pinView {s t : State} (h : t.pinView = s.pinView) : LeadsKeepingPins s (.next t) :=
  (KeepsPins.of_pinView h).leads

/-- A command that touches no lane and no credential leaves every pin. -/
theorem leads_of_frame {s t : State} (hl : t.lanes = s.lanes) (hc : t.creds = s.creds) : LeadsKeepingPins s (.next t) :=
  leads_of_pinView (pinView_congr hl hc)

section Commands

variable {s : State}

/-! ### The Loader Link -/

/-- A chunk pins nothing (R64). -/
theorem execChunkSend_pins (i : LaneId) : LeadsKeepingPins s (execChunkSend i s) := by
  unfold execChunkSend
  split
  · next hst => exact (KeepsPins.resolveStep (.of_pinView (proceed_pinView s i (by simp [hst]))) i).leads
  · exact leads_same s

/-- With a readback write in flight nothing is outstanding, so the lane pins nothing when the request that has waited goes
out (R69, R101). -/
theorem execReadbackWriteEnd_pins (h : s.lanesConform) (e : Epoch) (i : LaneId) (r : HostWrite) :
    LeadsKeepingPins s (execReadbackWriteEnd e i r s) := by
  have hended : KeepsPins s (s.modLane i (fun l => { l with readback := none })) :=
    .of_pinView (State.modLane_pinView s i rfl)
  unfold execReadbackWriteEnd
  split
  · split
    · next hw =>
      obtain ⟨-, -, -, hpin, hrb⟩ := (Lane.conforms_iff _).mp (h i)
      have hnone : (s.lane i).outstanding = none := by
        refine hrb.resolve_left fun hn => ?_
        simp [Lane.writeLeft, hn] at hw
      have hunpinned : (s.lane i).pinned = none := by simpa [hnone] using hpin
      unfold endedWriteOut
      dsimp only
      split
      · exact (KeepsPins.resolveStep (hended.trans (.proceed (by rwa [State.lane_modLane_self]))) i).leads
      · exact hended.leads
    · exact leads_same s
  split
  · split
    · exact (KeepsPins.resolveStep (.of_pinView (readbackWritten_pinView s i _ _)) i).leads
    · exact (KeepsPins.resolveStep hended i).leads
  · exact leads_same s

/-- A READY lane pins nothing, so the credential step that has waited for TXD may pin its entry (R27, R101). -/
theorem execFrameSent_pins (h : s.lanesConform) (i : LaneId) : LeadsKeepingPins s (execFrameSent i s) := by
  have hidle : KeepsPins s (s.modLane i (fun l => { l with tx := .idle })) := .of_pinView (State.modLane_pinView s i rfl)
  unfold execFrameSent
  split
  · exact leads_same s
  · exact leads_same s
  dsimp only
  split
  · exact leads_of_pinView (by simp)
  split
  · exact leads_of_pinView (by simp)
  split
  · next hready =>
    have hunpinned : (s.lane i).pinned = none := (Lane.quiet_of_state (h i) (by simp [hready])).not_pinned
    exact (KeepsPins.resolveStep (hidle.trans (.proceed (by rwa [State.lane_modLane_self]))) i).leads
  · exact hidle.leads

theorem execResponseTimeout_pins (i : LaneId) : LeadsKeepingPins s (execResponseTimeout i s) := by
  unfold execResponseTimeout
  split
  · exact leads_same s
  split
  · exact leads_same s
  split
  · exact leads_of_pinView (by simp)
  · exact (KeepsPins.laneFault s i _).leads

theorem execFrameReceived_pins (i : LaneId) (chars : List Byte) : LeadsKeepingPins s (execFrameReceived i chars s) := by
  have hoff : KeepsPins s (s.modLane i (fun l => { l with rx := none })) := .of_pinView (State.modLane_pinView s i rfl)
  unfold execFrameReceived
  split
  · split
    · exact (hoff.trans (.takeFrame _ i _ _ _)).leads
    all_goals exact leads_same s
  · exact leads_same s

theorem execFrameSpoiled_pins (i : LaneId) (chars : List Byte) (bad : Option RxChar) :
    LeadsKeepingPins s (execFrameSpoiled i chars bad s) := by
  unfold execFrameSpoiled
  split
  · exact leads_of_pinView (by simp [spoilFrame])
  · exact leads_same s

theorem execFrameGapTimeout_pins (i : LaneId) : LeadsKeepingPins s (execFrameGapTimeout i s) := by
  unfold execFrameGapTimeout
  split
  · exact leads_of_pinView (by simp [spoilFrame])
  · exact leads_same s

theorem execFrameCharacterReceived_pins (i : LaneId) (char : RxChar) :
    LeadsKeepingPins s (execFrameCharacterReceived i char s) := by
  unfold execFrameCharacterReceived
  split
  · exact leads_of_pinView (by simp)
  · exact leads_same s

/-! ### The phases of ATTACH -/

theorem execTrainingPatternSent_pins (i : LaneId) : LeadsKeepingPins s (execTrainingPatternSent i s) := by
  unfold execTrainingPatternSent
  split
  · exact leads_of_pinView (by simp)
  · exact leads_same s
  · exact leads_same s

theorem execPowerSettleExpiry_pins (i : LaneId) : LeadsKeepingPins s (execPowerSettleExpiry i s) := by
  unfold execPowerSettleExpiry
  split
  · exact leads_same s
  · exact leads_of_pinView (by simp)

theorem execCheckWaitExpiry_pins (i : LaneId) : LeadsKeepingPins s (execCheckWaitExpiry i s) := by
  unfold execCheckWaitExpiry
  split
  · exact leads_same s
  · exact leads_of_pinView (by simp)

theorem execResetPulseExpiry_pins (i : LaneId) : LeadsKeepingPins s (execResetPulseExpiry i s) := by
  unfold execResetPulseExpiry
  split
  · split
    · exact leads_of_pinView (by simp)
    · exact leads_same s
  · exact leads_same s

theorem execBootSettleExpiry_pins (i : LaneId) : LeadsKeepingPins s (execBootSettleExpiry i s) := by
  unfold execBootSettleExpiry
  split
  · split
    · dsimp only
      split
      · exact leads_of_pinView (by simp)
      · exact leads_of_pinView (by simp)
    · exact leads_same s
  · exact leads_same s

theorem execTrainingCharacterReceived_pins (i : LaneId) (char : RxChar) :
    LeadsKeepingPins s (execTrainingCharacterReceived i char s) := by
  unfold execTrainingCharacterReceived
  split
  · split
    · exact leads_of_pinView (by simp)
    · exact (KeepsPins.resolveStep (.of_pinView (by simp)) i).leads
  · exact leads_same s

theorem execTrainingTimeout_pins (i : LaneId) : LeadsKeepingPins s (execTrainingTimeout i s) := by
  have hstop : KeepsPins s (s.modLane i (fun l => { l with training := none })) :=
    .of_pinView (State.modLane_pinView s i rfl)
  unfold execTrainingTimeout
  split
  · dsimp only
    split
    · exact (hstop.trans (.laneFault _ i _)).leads
    split
    · exact hstop.leads
    split
    · exact leads_of_pinView (by simp)
    · exact hstop.leads
  · exact leads_same s

theorem execRateGapExpiry_pins (i : LaneId) : LeadsKeepingPins s (execRateGapExpiry i s) := by
  unfold execRateGapExpiry
  split
  · exact leads_same s
  dsimp only
  split
  · exact (KeepsPins.resolveStep (.of_pinView (by simp)) i).leads
  · exact leads_of_pinView (by simp)

/-! ### The Supply Monitor -/

theorem execSuperviseTimerExpiry_pins : LeadsKeepingPins s (execSuperviseTimerExpiry s) := by
  unfold execSuperviseTimerExpiry
  split
  · refine leads_of_pinView (pinView_ext (fun _ => rfl) fun k => ?_)
    simp only [State.lane, Vector.getElem_map]
    split <;> rfl
  · exact leads_same s

theorem execConversionStart_pins : LeadsKeepingPins s (execConversionStart s) := by
  unfold execConversionStart
  split
  · exact leads_same s
  split
  · next i _ => exact leads_of_pinView (State.modLane_pinView s i (f := fun l => { l with checkPending := false }) rfl)
  split
  · next i _ => exact leads_of_pinView (State.modLane_pinView s i (f := fun l => { l with supervisePending := false }) rfl)
  · exact leads_same s

theorem execConversionEnd_pins (mv : Int) : LeadsKeepingPins s (execConversionEnd mv s) := by
  unfold execConversionEnd
  split
  · exact leads_same s
  next c _ =>
  have hidle : KeepsPins s { s with supply := { s.supply with converter := none } } := .of_pinView rfl
  have hsample := hidle.trans (.of_pinView (State.modLane_pinView _ c.lane (f := fun l =>
    { l with lastSample := sampleOf mv }) rfl))
  dsimp only
  split
  · exact hidle.leads
  split
  · exact (hsample.trans (.takeCheck _ _ _)).leads
  · exact (hsample.trans (.takeSupervise _ _ _)).leads

theorem execOvercurrentTrip_pins (i : LaneId) : LeadsKeepingPins s (execOvercurrentTrip i s) := by
  unfold execOvercurrentTrip
  split
  · exact (KeepsPins.laneFault s i _).leads
  · exact leads_same s

/-! ### The Staging Pool -/

theorem execStagingReadIssue_pins : LeadsKeepingPins s (execStagingReadIssue s) := by
  unfold execStagingReadIssue
  repeat' split
  all_goals exact leads_of_frame rfl rfl

theorem execStagingReadEnd_pins (e : Epoch) (b : BlockId) (r : HostRead) :
    LeadsKeepingPins s (execStagingReadEnd e b r s) := by
  have hoffer : ∀ t n, KeepsPins t (offerIfClear t n) := fun t n => .of_pinView (pinView_congr (by simp) (by simp))
  have hpool : ∀ p, KeepsPins s (s.setPool p) := fun p => .of_pinView (State.setPool_pinView s p)
  unfold execStagingReadEnd
  split
  · exact (hpool _).leads
  split
  · exact leads_same s
  split
  · unfold blockReadEnd
    split
    · split
      · exact leads_same s
      split
      · exact ((hpool _).trans (hoffer _ _)).leads
      · exact (hpool _).leads
    · exact (((hpool _).trans (.imageFailed _ _ _ _)).trans (hoffer _ _)).leads
  · exact leads_same s

/-! ### The Intake Unit and the Credential Table -/

theorem execIntakeArbiterChoice_pins : LeadsKeepingPins s (execIntakeArbiterChoice s) := by
  unfold execIntakeArbiterChoice
  split
  · split
    · unfold chooseRing
      dsimp only
      split
      · refine (KeepsPins.trans (.of_pinView ?_) (.examine _ _ _)).leads
        rfl
      · exact leads_of_frame rfl rfl
    · exact leads_same s
  · exact leads_same s

/-- A cleared entry keeps its pin count (R99). -/
theorem clearCredentials_pinView (e : Option CredId) : (clearCredentials s e).1.pinView = s.pinView := by
  unfold clearCredentials
  split
  · split
    · refine pinView_ext (fun d => ?_) fun _ => rfl
      rw [State.modCred_pins]
      split <;> rfl
    · rfl
  · split
    · refine pinView_ext (fun d => ?_) fun _ => rfl
      simp [State.cred, Credential.cleared]
    · rfl

theorem execRecordReadEnd_pins (e : Epoch) (r : HostRead) : LeadsKeepingPins s (execRecordReadEnd e r s) := by
  unfold execRecordReadEnd
  split
  · split
    · exact leads_same s
    split
    · exact leads_of_frame (by simp) (by simp)
    split
    · unfold takeRecord
      split
      · exact leads_of_pinView (by simp)
      split
      · exact leads_of_pinView (by simp)
      split
      case h_1 => exact (KeepsPins.abortLookup s _ _ _).leads
      case h_2 => exact leads_of_pinView (by simp [clearCredentials_pinView])
      case h_3 => exact leads_of_frame rfl rfl
      all_goals exact (KeepsPins.examine s _ _).leads
    · exact leads_same s
  · exact leads_same s

/-- A loaded entry keeps its pin count (R98). -/
theorem execLoadCredentialReadEnd_pins (e : Epoch) (r : HostRead) :
    LeadsKeepingPins s (execLoadCredentialReadEnd e r s) := by
  have hload : ∀ c cls mask len bytes,
      (s.modCred c (fun x => x.load cls mask len bytes)).pinView = s.pinView := by
    intro c cls mask len bytes
    refine pinView_ext (fun d => ?_) fun _ => rfl
    rw [State.modCred_pins]
    split <;> rfl
  unfold execLoadCredentialReadEnd
  split
  · split
    · repeat' split
      all_goals exact leads_of_pinView (by simp [hload])
    · exact leads_same s
  · exact leads_same s

theorem execListReadEnd_pins (e : Epoch) (n : SlotId) (r : HostRead) : LeadsKeepingPins s (execListReadEnd e n r s) := by
  have hretire : ∀ j, (retireAborted s n j).pinView = s.pinView := fun j =>
    pinView_congr (by simp [retireAborted]) (by simp [retireAborted])
  have hfail : ∀ j st d, (completeFromIntake s n j st d).pinView = s.pinView := fun j st d => by simp [completeFromIntake]
  unfold execListReadEnd
  split
  · split
    · exact leads_same s
    split
    · split
      · exact leads_of_pinView (hretire _)
      · exact leads_of_pinView (hfail _ _ _)
    split
    · exact leads_same s
    split
    · exact leads_of_pinView (hretire _)
    dsimp only
    split
    · exact leads_of_pinView (hfail _ _ _)
    · exact (KeepsPins.trans (.of_pinView (State.setSlot_pinView s n _)) (.place _ n)).leads
  · exact leads_same s

/-! ### The Completion Writer -/

theorem execCompletionTransactionStart_pins : LeadsKeepingPins s (execCompletionTransactionStart s) := by
  unfold execCompletionTransactionStart
  repeat' split
  all_goals exact leads_of_frame rfl rfl

theorem execResultRecordWriteEnd_pins (e : Epoch) (i : LaneId) (r : HostWrite) :
    LeadsKeepingPins s (execResultRecordWriteEnd e i r s) := by
  unfold execResultRecordWriteEnd
  split
  · split
    · dsimp only
      split
      · exact leads_of_frame (by simp) (by simp)
      · exact leads_of_frame (by simp) (by simp)
    · exact leads_same s
  · exact leads_same s

theorem execCoalescingDelayExpiry_pins : LeadsKeepingPins s (execCoalescingDelayExpiry s) := by
  unfold execCoalescingDelayExpiry
  split
  · exact leads_same s
  · exact leads_of_frame (by simp [cqSignal]) (by simp [cqSignal])

theorem execCompletionRecordWriteEnd_pins (e : Epoch) (r : HostWrite) :
    LeadsKeepingPins s (execCompletionRecordWriteEnd e r s) := by
  unfold execCompletionRecordWriteEnd
  split
  · next head _ _ _ =>
    split
    · refine leads_of_pinView (Eq.trans (b := (completeRecord s head).pinView) ?_ (completeRecord_pinView s head))
      exact pinView_congr (by simp) (by simp)
    · exact leads_of_frame (by simp) (by simp)
  · exact leads_same s

/-! ### Device Control -/

/-- After a reset no entry has a pin and no lane pins one (R51, R96). -/
theorem resetTo_pinsMatch (addr : BitVec 64) : (resetTo s addr).pinsMatch := by
  intro c
  have hpins : ((resetTo s addr).cred c).pins = 0 := by simp [resetTo, State.reset, State.cred, Credential.reset]
  have hlane : ∀ i, ((resetTo s addr).lane i).pinned = none := by
    intro i
    simp [resetTo, State.lane, Lane.returned, Lane.reset]
  rw [hpins]
  simp [hlane]

theorem execConfigReadEnd_pins (e : Epoch) (r : HostRead) : LeadsKeepingPins s (execConfigReadEnd e r s) := by
  unfold execConfigReadEnd
  split
  · split
    · exact leads_of_frame (by simp) (by simp)
    split
    · exact leads_same s
    split
    · exact leads_of_frame (by simp) (by simp)
    · exact leads_of_frame (by simp [configRefused]) (by simp [configRefused])
  · exact leads_same s

theorem execEnable_pins (w : Bool) : LeadsKeepingPins s (execEnable w s) := by
  unfold execEnable
  split
  · exact leads_of_frame (by simp) (by simp)
  · exact leads_of_frame (by simp) (by simp)

theorem execSubmitWrite_pins (value : BitVec 32) : LeadsKeepingPins s (execSubmitWrite value s) := by
  unfold execSubmitWrite
  dsimp only
  split
  case h_1 | h_2 => exact leads_of_frame rfl rfl
  all_goals exact leads_of_frame (applySubmit_lanes _ _) (applySubmit_creds _ _ _)

theorem execCqHeadWrite_pins (value : BitVec 32) : LeadsKeepingPins s (execCqHeadWrite value s) := by
  unfold execCqHeadWrite
  split
  all_goals exact leads_of_frame rfl rfl

/-! ### Every command -/

/-- Every command keeps pin counts matching on lanes that conform. -/
theorem exec_pins (h : s.lanesConform) (c : Instr) : LeadsKeepingPins s (exec c s) := by
  cases c with
  | powerOnReset => exact KeepsPins.leads fun _ => resetTo_pinsMatch 0
  | softReset => exact KeepsPins.leads fun _ => resetTo_pinsMatch _
  | enable w => exact execEnable_pins w
  | halt => exact leads_of_frame (by simp) (by simp)
  | submitWrite v => exact execSubmitWrite_pins v
  | cqHeadWrite v => exact execCqHeadWrite_pins v
  | irqWrite v => exact leads_of_frame rfl rfl
  | statusWrite v => exact leads_of_frame rfl rfl
  | configAddrWrite half v => exact leads_of_frame rfl rfl
  | registerWriteIgnored o b v => exact leads_same s
  | configReadEnd e r => exact execConfigReadEnd_pins e r
  | drainComplete => exact leads_of_frame (by simp) (by simp)
  | intakeArbiterChoice => exact execIntakeArbiterChoice_pins
  | recordReadEnd e r => exact execRecordReadEnd_pins e r
  | listReadEnd e n r => exact execListReadEnd_pins e n r
  | loadCredentialReadEnd e r => exact execLoadCredentialReadEnd_pins e r
  | holdingQueueEntry => exact leads_of_pinView (promote_pinView s)
  | completionTransactionStart => exact execCompletionTransactionStart_pins
  | resultRecordWriteEnd e i r => exact execResultRecordWriteEnd_pins e i r
  | completionRecordWriteEnd e r => exact execCompletionRecordWriteEnd_pins e r
  | coalescingDelayExpiry => exact execCoalescingDelayExpiry_pins
  | stagingReadIssue => exact execStagingReadIssue_pins
  | stagingReadEnd e b r => exact execStagingReadEnd_pins e b r
  | chunkSend i => exact execChunkSend_pins i
  | readbackWriteEnd e i r => exact execReadbackWriteEnd_pins h e i r
  | frameSent i => exact execFrameSent_pins h i
  | responseTimeout i => exact execResponseTimeout_pins i
  | frameReceived i chars => exact execFrameReceived_pins i chars
  | frameSpoiled i chars bad => exact execFrameSpoiled_pins i chars bad
  | frameGapTimeout i => exact execFrameGapTimeout_pins i
  | trainingPatternSent i => exact execTrainingPatternSent_pins i
  | trainingCharacterReceived i char => exact execTrainingCharacterReceived_pins i char
  | trainingTimeout i => exact execTrainingTimeout_pins i
  | powerSettleExpiry i => exact execPowerSettleExpiry_pins i
  | checkWaitExpiry i => exact execCheckWaitExpiry_pins i
  | resetPulseExpiry i => exact execResetPulseExpiry_pins i
  | bootSettleExpiry i => exact execBootSettleExpiry_pins i
  | rateGapExpiry i => exact execRateGapExpiry_pins i
  | superviseTimerExpiry => exact execSuperviseTimerExpiry_pins
  | conversionStart => exact execConversionStart_pins
  | conversionEnd mv => exact execConversionEnd_pins mv
  | overcurrentTrip i => exact execOvercurrentTrip_pins i
  | frameCharacterReceived i char => exact execFrameCharacterReceived_pins i char

end Commands

/-- Settles O58: a step is the front command on the state with the rest of the queue, which has the same lanes and pins. -/
theorem everyStepKeepsPinsMatching : Obligations.EveryStepKeepsPinsMatching := by
  intro s t hconf hpins hstep
  unfold step at hstep
  split at hstep
  · exact leads_same s t hstep hpins
  · next rest _ => exact exec_pins (s := { s with pending := rest }) hconf _ t hstep hpins

end Sys2Proof.Machine
end

section
/-! CERTIFICATES. CLEAR_CREDENTIAL and LOAD_CREDENTIAL: the record that is taken, the bytes read, and the completion that is
posted (R98, R99, R127 to R129, R133, R134). -/

namespace Sys2Proof.Machine

/-! ### A completion at intake is posted -/

/-- The intake engine's own entry enters the holding queue, or the engine joins the wait list (R133, R138). -/
theorem postIntake_posts {s : State} (h : .engine ∉ s.writer.waitList) (c : IntakeCompletion) :
    s.posts (postIntake s c) c := by
  have hsame : (s.setEngine (.waiting c)).canEnter = s.canEnter := rfl
  unfold postIntake offer
  rw [hsame]
  split
  · next henter => exact .inl ⟨(canEnter_iff s).mp henter, rfl⟩
  · next hfull =>
    refine .inr ⟨fun hopen => hfull ((canEnter_iff s).mpr hopen), ?_⟩
    have hnot : ¬ (s.setEngine (.waiting c)).writer.waitList.contains .engine = true := by simpa using h
    unfold State.joinWait
    rw [if_neg hnot]
    rfl

/-- What is posted is posted beside whatever the Credential Table holds. -/
theorem postIntake_setCreds (s : State) (k : Vector Credential 8) (c : IntakeCompletion) :
    postIntake { s with creds := k } c = { postIntake s c with creds := k } := by
  have hsame : (State.setEngine { s with creds := k } (.waiting c)).canEnter = (s.setEngine (.waiting c)).canEnter := rfl
  unfold postIntake offer
  rw [hsame]
  split
  · rfl
  · by_cases hin : Candidate.engine ∈ s.writer.waitList
    · simp [State.joinWait, State.setEngine, hin]
    · simp [State.joinWait, State.setEngine, hin]

/-! ### The record that is taken -/

section Taken

variable {s : State} {r : RingId} {bytes : List Byte} {j : JobSpec}

/-- A record that is taken carries a tag that no job of its ring holds (R128). -/
theorem State.recordTaken.tag_free (h : s.recordTaken r bytes j) : tagHeld s r j.tag = false := by
  obtain ⟨-, -, -, -, hfree⟩ := h
  refine List.any_eq_false.mpr fun n _ => ?_
  split
  · simp
  · next k hk => simpa using hfree n k hk

/-- The end of its record read takes the record (R126). -/
theorem State.recordTaken.exec_eq (h : s.recordTaken r bytes j) :
    exec (.recordReadEnd .live (.good bytes)) s = .next (takeRecord s r bytes) := by
  obtain ⟨⟨a, he⟩, hd, hl, -, -⟩ := h
  simp [exec, execRecordReadEnd, he, hd, hl]

theorem State.recordTaken.validate_eq (h : s.recordTaken r bytes j) : validate bytes = .ok j := by
  obtain ⟨-, -, -, hv, -⟩ := h
  exact hv

/-- A CLEAR_CREDENTIAL is carried out at once and posts its completion (R99). -/
theorem State.recordTaken.exec_clearCredential (h : s.recordTaken r bytes j) {e : Option CredId}
    (hp : j.params = .clearCredential e) : exec (.recordReadEnd .live (.good bytes)) s =
      .next (postIntake (clearCredentials s e).1 (recordCompletion r bytes (clearCredentials s e).2 .none)) := by
  rw [h.exec_eq, takeRecord, h.validate_eq]
  simp [h.tag_free, hp]

/-- A LOAD_CREDENTIAL issues the read of its bytes (R98). -/
theorem State.recordTaken.exec_loadCredential (h : s.recordTaken r bytes j) {e : CredId} {len : Nat}
    {cls mask : BitVec 16} (hp : j.params = .loadCredential e len cls mask) :
    exec (.recordReadEnd .live (.good bytes)) s = .next (s.setEngine (.credentialRead r j)) := by
  rw [h.exec_eq, takeRecord, h.validate_eq]
  simp [h.tag_free, hp]

end Taken

/-! ### The entries that a CLEAR_CREDENTIAL concerns -/

/-- The entry that it names, or with ALL every entry (R99). -/
def clearConcerns (e : Option CredId) (c : CredId) : Prop := e = none ∨ e = some c

section Clear

variable {s : State} {e : Option CredId}

/-- With no entry concerned pinned, the entries concerned are cleared and the others kept (R99). -/
theorem clearCredentials_unpinned (h : ∀ c, clearConcerns e c → (s.cred c).pins = 0) :
    ∃ k : Vector Credential 8, clearCredentials s e = ({ s with creds := k }, .done) ∧
      (∀ c : CredId, clearConcerns e c → k[c.val] = (s.cred c).cleared) ∧
      ∀ c : CredId, ¬ clearConcerns e c → k[c.val] = s.cred c := by
  cases e with
  | none =>
    have hall : allCreds.all (fun c => (s.cred c).pins == 0) = true := by simpa using fun c _ => h c (.inl rfl)
    refine ⟨s.creds.map Credential.cleared, ?_, fun c _ => ?_, fun c hc => absurd (.inl rfl) hc⟩
    · unfold clearCredentials
      dsimp only
      rw [if_pos hall]
    · simp [State.cred]
  | some d =>
    refine ⟨(s.modCred d Credential.cleared).creds, ?_, fun c hc => ?_, fun c hc => ?_⟩
    · unfold clearCredentials
      dsimp only
      rw [if_pos (h d (.inr rfl))]
      rfl
    · obtain rfl : d = c := by simpa [clearConcerns] using hc
      exact State.cred_modCred_self s d _
    · exact State.cred_modCred_ne s (fun hcd => hc (.inr (congrArg some hcd.symm))) _

/-- With an entry concerned pinned, nothing is cleared (R99). -/
theorem clearCredentials_pinned {c : CredId} (hc : clearConcerns e c) (h : (s.cred c).pins ≠ 0) :
    clearCredentials s e = (s, .credentialBusy) := by
  cases e with
  | none =>
    have hall : ¬ allCreds.all (fun c => (s.cred c).pins == 0) = true := by
      simp only [List.all_eq_true, beq_iff_eq]
      exact fun hzero => h (hzero c (List.mem_finRange c))
    exact if_neg hall
  | some d =>
    obtain rfl : d = c := by simpa [clearConcerns] using hc
    exact if_neg h

end Clear

/-- Settles O16: the entries concerned unpinned or one of them pinned. -/
theorem clearCredentialTable : Obligations.ClearCredentialTable := by
  intro s r bytes j e htaken hp hwait
  refine ⟨fun hfree => ?_, fun ⟨c, hc, hpinned⟩ => ?_⟩
  · obtain ⟨k, hclear, hcleared, hkept⟩ := clearCredentials_unpinned (s := s) (e := e) hfree
    have hexec := htaken.exec_clearCredential hp
    rw [hclear, postIntake_setCreds] at hexec
    exact ⟨_, _, hexec, postIntake_posts hwait _, rfl, hcleared, hkept⟩
  · have hexec := htaken.exec_clearCredential hp
    rw [clearCredentials_pinned hc hpinned] at hexec
    exact ⟨_, hexec, postIntake_posts hwait _⟩

/-! ### The credential bytes read -/

section Load

variable {s : State} {r : RingId} {j : JobSpec} {e : CredId} {len : Nat} {cls mask : BitVec 16}
  (he : s.intake.engine = .credentialRead r j) (hp : j.params = .loadCredential e len cls mask)
include he hp

/-- In FAULT the end of the read is discarded (R134). -/
theorem exec_loadCredentialReadEnd_fault (hd : s.ctl.device = .fault) (w : HostRead) :
    exec (.loadCredentialReadEnd .live w) s = .next s := by
  simp [exec, execLoadCredentialReadEnd, he, hp, hd]

theorem exec_loadCredentialReadEnd_failed (hd : s.ctl.device ≠ .fault) :
    exec (.loadCredentialReadEnd .live .failed) s = .next (postIntake s (credentialCompletion r j .hostError)) := by
  simp [exec, execLoadCredentialReadEnd, he, hp, hd]

theorem exec_loadCredentialReadEnd_pinned (hd : s.ctl.device ≠ .fault) {bytes : List Byte} (hl : bytes.length = len)
    (hpins : (s.cred e).pins ≠ 0) : exec (.loadCredentialReadEnd .live (.good bytes)) s =
      .next (postIntake s (credentialCompletion r j .credentialBusy)) := by
  simp [exec, execLoadCredentialReadEnd, he, hp, hd, hl, hpins]

/-- The entry is overwritten whole beside the completion (R98). -/
theorem exec_loadCredentialReadEnd_loaded (hd : s.ctl.device ≠ .fault) {bytes : List Byte} (hl : bytes.length = len)
    (hpins : (s.cred e).pins = 0) : exec (.loadCredentialReadEnd .live (.good bytes)) s =
      .next { postIntake s (credentialCompletion r j .done) with
        creds := s.creds.set e.val ((s.cred e).load cls mask len bytes) } := by
  simp [exec, execLoadCredentialReadEnd, he, hp, hd, hl, hpins, State.modCred, postIntake_setCreds]

end Load

/-- Settles O17: the record read, and the end of the bytes read by the device, the entry's pins and the read's result. -/
theorem loadCredentialReadEndTable : Obligations.LoadCredentialReadEndTable := by
  refine ⟨fun s r bytes j e len cls mask htaken hp => htaken.exec_loadCredential hp, ?_⟩
  intro s r j e len cls mask bytes he hp hl
  refine ⟨fun hd hwait => ⟨?_, fun hpins => ?_, fun hpins => ?_⟩, fun hd => ?_⟩
  · exact ⟨_, exec_loadCredentialReadEnd_failed he hp hd, postIntake_posts hwait _⟩
  · exact ⟨_, exec_loadCredentialReadEnd_pinned he hp hd hl hpins, postIntake_posts hwait _⟩
  · refine ⟨_, postIntake_posts hwait _, (exec_loadCredentialReadEnd_loaded he hp hd hl hpins).trans ?_⟩
    simp [Credential.load, credentialCompletion, JobSpec.irqNow, hpins, hl]
  · exact ⟨exec_loadCredentialReadEnd_fault he hp hd _, exec_loadCredentialReadEnd_fault he hp hd _⟩

end Sys2Proof.Machine
end

section
/-! CERTIFICATES. The supervise timer, and the converter's arbiter (R113, R117). -/

namespace Sys2Proof.Machine

/-! ### The supervise timer -/

/-- A running timer asks for a SUPERVISE of every lane with its switch on, and starts again (R117). -/
theorem exec_superviseTimerExpiry_running {s : State} {ms : Nat} {c : Settings} (ht : s.supply.timer = some ms)
    (hc : s.ctl.inForce = some c) :
    exec .superviseTimerExpiry s = .next { s with
      lanes := s.lanes.map (fun l => if l.power then { l with supervisePending := true } else l)
      supply := { s.supply with timer := some c.supervisePeriod } } := by
  simp [exec, execSuperviseTimerExpiry, ht, hc]

/-- A SUPERVISE request is placed for a lane whose switch is on, and none for another (R115, R117). -/
theorem Lane.placeSupervise_eq (l : Lane) :
    (if l.power then { l with supervisePending := true } else l)
      = { l with supervisePending := l.power || l.supervisePending } := by
  by_cases h : l.power = true
  · rw [if_pos h, h, Bool.true_or]
  · have hkept : (l.power || l.supervisePending) = l.supervisePending := by simp [h]
    rw [if_neg h, hkept]

/-- A stopped timer does not expire. -/
theorem exec_superviseTimerExpiry_stopped {s : State} (h : s.supply.timer = none ∨ s.ctl.inForce = none) :
    exec .superviseTimerExpiry s = .next s := by
  rcases h with h | h
  · simp [exec, execSuperviseTimerExpiry, h]
  · simp [exec, execSuperviseTimerExpiry, h]

/-! ### The arbiter -/

/-- The lane at place `m` of the arbiter's order stands `m + 1` above the last served (R113). -/
theorem getElem_lanesAfter (last : LaneId) {m : Nat} (h : m < (lanesAfter last).length) :
    (lanesAfter last)[m] = last + 1 + Fin.ofNat 16 m := by
  simp [lanesAfter]

/-- The arbiter takes the first lane with a request upward from the one after the last served (R113). -/
theorem find?_lanesAfter {last : LaneId} {asks : LaneId → Bool} {k : Fin 16} (hk : asks (last + 1 + k) = true)
    (hbefore : ∀ m : Fin 16, m < k → asks (last + 1 + m) = false) :
    (lanesAfter last).find? asks = some (last + 1 + k) := by
  have hlength : (lanesAfter last).length = 16 := by simp [lanesAfter]
  rw [List.find?_eq_some_iff_getElem]
  refine ⟨hk, k.val, k.isLt.trans_eq hlength.symm, by simp [getElem_lanesAfter], fun m hm => ?_⟩
  have hm16 : m < 16 := hm.trans k.isLt
  have hfin : Fin.ofNat 16 m = ⟨m, hm16⟩ := Fin.ext (Nat.mod_eq_of_lt hm16)
  rw [getElem_lanesAfter, hfin, hbefore ⟨m, hm16⟩ hm]
  rfl

section Arbiter

variable {s : State}

/-- With no CHECK request the arbiter finds none (R113). -/
theorem nextCheck_eq_none (h : ∀ i : LaneId, (s.lane i).checkPending = false) : nextCheck s = none :=
  List.find?_eq_none.mpr fun i _ => by simp [h i]

/-- With no SUPERVISE request the arbiter finds none (R113). -/
theorem nextSupervise_eq_none (h : ∀ i : LaneId, (s.lane i).supervisePending = false) : nextSupervise s = none :=
  List.find?_eq_none.mpr fun i _ => by simp [h i]

/-- An idle converter takes the CHECK request that the arbiter finds (R113). -/
theorem exec_conversionStart_check {i : LaneId} (hidle : s.supply.converter = none) (hi : nextCheck s = some i) :
    exec .conversionStart s = .next { s with
      lanes := s.lanes.set i.val { s.lane i with checkPending := false }
      supply := { s.supply with converter := some { lane := i, cls := .check, void := false }, checkPtr := i } } := by
  simp [exec, execConversionStart, hidle, hi, State.modLane, State.setLane]

/-- With no CHECK request an idle converter takes the SUPERVISE request that the arbiter finds (R113). -/
theorem exec_conversionStart_supervise {i : LaneId} (hidle : s.supply.converter = none) (hnone : nextCheck s = none)
    (hi : nextSupervise s = some i) :
    exec .conversionStart s = .next { s with
      lanes := s.lanes.set i.val { s.lane i with supervisePending := false }
      supply :=
        { s.supply with converter := some { lane := i, cls := .supervise, void := false }, supervisePtr := i } } := by
  simp [exec, execConversionStart, hidle, hnone, hi, State.modLane, State.setLane]

/-- A busy converter takes nothing (R113). -/
theorem exec_conversionStart_busy (h : s.supply.converter.isSome = true) : exec .conversionStart s = .next s := by
  obtain ⟨c, hc⟩ := Option.isSome_iff_exists.mp h
  simp [exec, execConversionStart, hc]

/-- With no request of either class nothing starts (R113). -/
theorem exec_conversionStart_nothing (hcheck : nextCheck s = none) (hsupervise : nextSupervise s = none) :
    exec .conversionStart s = .next s := by
  cases hc : s.supply.converter with
  | none => simp [exec, execConversionStart, hc, hcheck, hsupervise]
  | some c => exact exec_conversionStart_busy (by simp [hc])

end Arbiter

/-- Settles O34: the timer running or not, and the converter by what the arbiter finds in each class. -/
theorem converterIsServedInTurn : Obligations.ConverterIsServedInTurn := by
  refine ⟨fun s => ⟨fun ms c ht hc => ?_, exec_superviseTimerExpiry_stopped⟩, fun s => ⟨?_, ?_, ?_⟩⟩
  · refine ⟨_, exec_superviseTimerExpiry_running ht hc, rfl, fun i => ?_⟩
    exact (Vector.getElem_map _ i.isLt).trans (Lane.placeSupervise_eq _)
  · intro k hidle hk hbefore
    exact exec_conversionStart_check hidle (find?_lanesAfter hk hbefore)
  · intro k hidle hnone hk hbefore
    exact exec_conversionStart_supervise hidle (nextCheck_eq_none hnone) (find?_lanesAfter hk hbefore)
  · rintro (hbusy | hnone)
    · exact exec_conversionStart_busy hbusy
    · exact exec_conversionStart_nothing (nextCheck_eq_none fun i => (hnone i).1)
        (nextSupervise_eq_none fun i => (hnone i).2)

end Sys2Proof.Machine
end

section
/-! SUPPORT. A lane fault of the supply on a lane whose switch is on: how the lane stands with its power off, its only job or
its lane event, and the conversion that becomes void (R44, R47, R49, R110, R114, R115). -/

namespace Sys2Proof.Machine

/-! ### The converter -/

/-- A conversion for a lane whose switch goes off is void (R110, R114). -/
theorem switchOff_converter {s : State} {i : LaneId} {c : Conversion} (hp : (s.lane i).power = true)
    (hc : s.supply.converter = some c) (hi : c.lane = i) :
    (switchOff s i).supply.converter = some { c with void := true } := by
  simp [switchOff, hp, voidConversion, hc, hi]

/-! ### The lane -/

/-- A lane whose switch was on once a supply fault has made it FAULTED and switched its power off (R44, R101, R110). -/
def Lane.supplyFaulted (l : Lane) (code : FaultCode) : Lane :=
  (({ l with pinned := none } : Lane).enterFaulted code).powerOff

/-- RESET is asserted before the power goes off, and MODE is kept (R26, R44). -/
theorem Lane.supplyFaulted_outputs (l : Lane) (code : FaultCode) :
    (l.supplyFaulted code).outputs = l.outputsAfter none (some true) (some false) :=
  l.outputsAfter_resetPower true false

/-- The state once lane `i` is FAULTED by its supply, before its job or its lane event is dealt with (R44). -/
def supplyFaulted (s : State) (i : LaneId) (code : FaultCode) : State :=
  switchOff ((releasePin s i).modLane i (fun l => l.enterFaulted code)) i

section SupplyFaulted

variable {s : State} {i : LaneId} {code : FaultCode}

theorem supplyFaulted_lane (hp : (s.lane i).power = true) :
    (supplyFaulted s i code).lane i = (s.lane i).supplyFaulted code := by
  have hlane : ((releasePin s i).modLane i (fun l => l.enterFaulted code)).lane i
      = ({ s.lane i with pinned := none } : Lane).enterFaulted code := by
    rw [State.lane_modLane_self, releasePin_lane, if_pos rfl]
  have hon : (({ s.lane i with pinned := none } : Lane).enterFaulted code).power = true := hp
  rw [supplyFaulted, switchOff_lane_self, hlane, if_pos hon]
  rfl

/-- Being FAULTED by its supply changes the lane, its pinned entry and the converter alone. -/
theorem supplyFaulted_frame (s : State) (i : LaneId) (code : FaultCode) :
    (supplyFaulted s i code).ctl = s.ctl ∧ (supplyFaulted s i code).slots = s.slots ∧
      (supplyFaulted s i code).writer = s.writer := by
  simp [supplyFaulted]

/-- Whether the holding queue takes a candidate is not changed by it (R138). -/
theorem supplyFaulted_holdingOpen (s : State) (i : LaneId) (code : FaultCode) :
    (supplyFaulted s i code).holdingOpen ↔ s.holdingOpen := by
  obtain ⟨hctl, -, hwriter⟩ := supplyFaulted_frame s i code
  unfold State.holdingOpen
  rw [hctl, hwriter]

theorem supplyFaulted_local (s : State) (i : LaneId) (code : FaultCode) : LaneLocal i s (supplyFaulted s i code) :=
  (releasePin_local s i).trans ((modLane_local _ i _).trans (switchOff_local _ i))

theorem supplyFaulted_converter {c : Conversion} (hp : (s.lane i).power = true) (hc : s.supply.converter = some c)
    (hi : c.lane = i) : (supplyFaulted s i code).supply.converter = some { c with void := true } := by
  refine switchOff_converter ?_ ?_ hi
  · rw [State.lane_modLane_self, releasePin_lane, if_pos rfl]
    exact hp
  · simp [hc]

end SupplyFaulted

/-! ### Lane events -/

/-- A candidate that joins the wait list stands in it (R138). -/
theorem State.mem_joinWait (s : State) (c : Candidate) : c ∈ (s.joinWait c).writer.waitList := by
  unfold State.joinWait
  split
  · next h => simpa using h
  · simp

section Event

variable {s : State} {i : LaneId} {code : FaultCode}

/-- With the holding queue open a lane event enters it at once, and none stays pending (R49, R138). -/
theorem raiseEvent_of_open (h : s.holdingOpen) :
    raiseEvent s i code = (s.setLane i { s.lane i with pendingEvent := none }).pushHolding
      (.event i { code := code, sample := (s.lane i).lastSample }) := by
  have henter : (s.modLane i (fun l =>
      { l with pendingEvent := some { code := code, sample := l.lastSample } })).canEnter = true := (canEnter_iff s).mpr h
  unfold raiseEvent offer
  rw [if_pos henter]
  simp [enterHolding, State.modLane, State.setLane, State.pushHolding, State.lane]

/-- Else it stays pending, and the lane's candidate waits (R50, R138). -/
theorem raiseEvent_of_not_open (h : ¬ s.holdingOpen) :
    raiseEvent s i code = (s.setLane i { s.lane i with
      pendingEvent := some { code := code, sample := (s.lane i).lastSample } }).joinWait (.laneEvent i) := by
  have henter : ¬ (s.modLane i (fun l =>
      { l with pendingEvent := some { code := code, sample := l.lastSample } })).canEnter = true :=
    fun hopen => h ((canEnter_iff s).mp hopen)
  unfold raiseEvent offer
  rw [if_neg henter]
  rfl

/-- Raising a lane event changes of the lane the pending event alone (R49). -/
theorem raiseEvent_lane (s : State) (i : LaneId) (code : FaultCode) :
    ∃ e : Option LaneEvent, (raiseEvent s i code).lane i = { s.lane i with pendingEvent := e } := by
  by_cases h : s.holdingOpen
  · exact ⟨none, by rw [raiseEvent_of_open h]; simp⟩
  · refine ⟨some { code := code, sample := (s.lane i).lastSample }, ?_⟩
    rw [raiseEvent_of_not_open h, State.lane_congr (State.joinWait_frame _ _).2.2.2.1, State.lane_setLane_self]

theorem raiseEvent_supply (s : State) (i : LaneId) (code : FaultCode) : (raiseEvent s i code).supply = s.supply := by
  simp [raiseEvent]

end Event

/-! ### The fault -/

section Fault

variable {s : State} {i : LaneId} {code : FaultCode}

/-- A second fault of the supply only switches the power off (R47). -/
theorem laneFault_faulted (hs : (s.lane i).state = .faulted) (hc : code.isSupply = true) :
    laneFault s i code = switchOff s i := by
  simp [laneFault, faultLane, hs, hc]

/-- With no job the supply fault raises a lane event (R49). -/
theorem laneFault_noJob (hs : (s.lane i).state ≠ .faulted) (hc : code.isSupply = true) (hq : (s.lane i).queue = []) :
    laneFault s i code = raiseEvent (supplyFaulted s i code) i code := by
  simp [laneFault, faultLane, hs, hc, currentJob, hq, supplyFaulted]

/-- The lane's only job ends with the supply fault's code, and no other follows (R44, R58). -/
theorem laneFault_onlyJob {n : SlotId} {j : Job} (hs : (s.lane i).state ≠ .faulted) (hc : code.isSupply = true)
    (hp : (s.lane i).power = true) (hq : (s.lane i).queue = [n]) (hj : s.slot n = some j) :
    laneFault s i code = closeJob (supplyFaulted s i code) i n
      ((s.lane i).result j.spec.params ((s.lane i).step != .none) ((s.lane i).faultVerdict j code false)) := by
  have hqueue : ((supplyFaulted s i code).lane i).queue = [n] := by
    rw [supplyFaulted_lane hp]
    exact hq
  rw [← nextJob_closeJob hqueue]
  simp [laneFault, faultLane, hs, hc, currentJob_of_head hq hj, supplyFaulted]

/-- A lane with at most one job, on which its supply fails, is left FAULTED with its power off and no job; of the lane's
other fields only the step in hand and the pending event may differ, and of the supply only the conversion (R44, R110). -/
theorem laneFault_supply_leaves (hs : (s.lane i).state ≠ .faulted) (hc : code.isSupply = true)
    (hp : (s.lane i).power = true) (hlen : (s.lane i).queue.length ≤ 1)
    (hjobs : ∀ n ∈ (s.lane i).queue, ∃ j : Job, s.slot n = some j ∧ j.results[i.val] = none) :
    (∃ (st : Step) (e : Option LaneEvent), (laneFault s i code).lane i =
      { (s.lane i).supplyFaulted code with queue := [], step := st, pendingEvent := e }) ∧
    (laneFault s i code).supply = (supplyFaulted s i code).supply ∧
    ∀ n ∈ (s.lane i).queue, (laneFault s i code).outcomeOf n i = some (.faulted code) := by
  match hq : (s.lane i).queue with
  | [] =>
    obtain ⟨e, he⟩ := raiseEvent_lane (supplyFaulted s i code) i code
    have hkept : (s.lane i).supplyFaulted code = { (s.lane i).supplyFaulted code with queue := [] } := by
      rw [← hq]
      rfl
    rw [laneFault_noJob hs hc hq]
    refine ⟨⟨((s.lane i).supplyFaulted code).step, e, ?_⟩, raiseEvent_supply _ i code, by simp⟩
    rw [he, supplyFaulted_lane hp, hkept]
  | [n] =>
    obtain ⟨j, hj, hres⟩ := hjobs n (by simp [hq])
    have hslot : (supplyFaulted s i code).slot n = some j := by
      rw [State.slot_congr (supplyFaulted_frame s i code).2.1, hj]
    have hend := endsOnlyJob_closeJob (supplyFaulted_local s i code)
      (by rw [supplyFaulted_lane hp]; exact hq) hslot hres
      ((s.lane i).result j.spec.params ((s.lane i).step != .none) ((s.lane i).faultVerdict j code false))
    rw [laneFault_onlyJob hs hc hp hq hj]
    refine ⟨⟨.none, ((s.lane i).supplyFaulted code).pendingEvent, ?_⟩, (closeJob_engine_supply _ _ _ _).2, ?_⟩
    · rw [hend.lane, supplyFaulted_lane hp]
    · intro m hm
      obtain rfl : m = n := by simpa using hm
      rw [outcomeOf_eq_resultOf, hend.result]
      rfl
  | _ :: _ :: _ => simp [hq] at hlen

/-- With no job and the holding queue open the lane event enters it (R49). -/
theorem laneFault_event_enters (hs : (s.lane i).state ≠ .faulted) (hc : code.isSupply = true)
    (hp : (s.lane i).power = true) (hq : (s.lane i).queue = []) (hopen : s.holdingOpen) :
    (laneFault s i code).writer.holding
        = s.writer.holding ++ [.event i { code := code, sample := (s.lane i).lastSample }] ∧
      ((laneFault s i code).lane i).pendingEvent = none := by
  rw [laneFault_noJob hs hc hq, raiseEvent_of_open ((supplyFaulted_holdingOpen s i code).mpr hopen),
    supplyFaulted_lane hp]
  refine ⟨?_, by simp⟩
  rw [State.pushHolding_writer, State.setLane_writer, (supplyFaulted_frame s i code).2.2]
  rfl

/-- With no job and the holding queue full or closed the lane event is pending and waits (R49, R138). -/
theorem laneFault_event_waits (hs : (s.lane i).state ≠ .faulted) (hc : code.isSupply = true)
    (hp : (s.lane i).power = true) (hq : (s.lane i).queue = []) (hfull : ¬ s.holdingOpen) :
    ((laneFault s i code).lane i).pendingEvent = some { code := code, sample := (s.lane i).lastSample } ∧
      .laneEvent i ∈ (laneFault s i code).writer.waitList := by
  rw [laneFault_noJob hs hc hq, raiseEvent_of_not_open (mt (supplyFaulted_holdingOpen s i code).mp hfull),
    supplyFaulted_lane hp]
  refine ⟨?_, State.mem_joinWait _ _⟩
  rw [State.lane_congr (State.joinWait_frame _ _).2.2.2.1, State.lane_setLane_self]
  rfl

end Fault

end Sys2Proof.Machine
end

section
/-! CERTIFICATES. The current-limit trip (R44, R47, R49, R110, R111). -/

namespace Sys2Proof.Machine

section Trip

variable {s : State} {i : LaneId}

/-- A switch that is off cannot trip (R111). -/
theorem exec_overcurrentTrip_off (hp : (s.lane i).power = false) : exec (.overcurrentTrip i) s = .next s := by
  simp [exec, execOvercurrentTrip, hp]

/-- A switch that trips is lane fault OVERCURRENT (R111). -/
theorem exec_overcurrentTrip_on (hp : (s.lane i).power = true) :
    exec (.overcurrentTrip i) s = .next (laneFault s i .overcurrent) := by
  simp [exec, execOvercurrentTrip, hp]

/-- A switch going off is recorded, and the lane's requests are dropped (R26, R110, R115). -/
theorem switchOff_lane_on (hp : (s.lane i).power = true) :
    (switchOff s i).lane i = { s.lane i with
      power := false, checkPending := false, supervisePending := false, checkWait := none
      outputs := (s.lane i).outputsAfter none none (some false) } := by
  rw [switchOff_lane_self, if_pos hp, ← (Lane.outputsAfter_one (s.lane i) false).2.2]
  rfl

end Trip

/-- Settles O36: the switch off, a FAULTED lane, and a lane with its only job or with none. -/
theorem tripOpensTheSwitch : Obligations.TripOpensTheSwitch := by
  intro s i
  refine ⟨exec_overcurrentTrip_off, fun hp => ?_⟩
  obtain ⟨hctl, -, hothers⟩ := laneFault_local s i .overcurrent
  refine ⟨_, exec_overcurrentTrip_on hp, hctl, hothers, fun hs => ?_, fun hs hlen hjobs => ?_⟩
  · rw [laneFault_faulted hs rfl]
    exact ⟨switchOff_lane_on hp, by simp, by simp⟩
  obtain ⟨⟨st, e, hlane⟩, hsupply, houtcome⟩ := laneFault_supply_leaves (code := .overcurrent) hs rfl hp hlen hjobs
  have hvoid : ∀ c : Conversion, s.supply.converter = some c → c.lane = i →
      (laneFault s i .overcurrent).supply.converter = some { c with void := true } := fun c hc hi => by
    rw [hsupply, supplyFaulted_converter hp hc hi]
  have houtputs : ((laneFault s i .overcurrent).lane i).outputs
      = (s.lane i).outputsAfter none (some true) (some false) := by
    rw [hlane]
    exact Lane.supplyFaulted_outputs _ _
  have hqueue : ((laneFault s i .overcurrent).lane i).queue = [] := by rw [hlane]
  refine ⟨?_, ?_, ?_, ?_, ?_, houtputs, ?_, ?_, ?_, ?_, ?_, ?_, ?_, hqueue, ?_, hvoid, houtcome,
    laneFault_event_enters hs rfl hp, laneFault_event_waits hs rfl hp⟩
  all_goals
    rw [hlane]
    rfl

end Sys2Proof.Machine
end

section
/-! CERTIFICATES. Writes of SUBMIT, IRQ, STATUS and CONFIG_ADDR, and the writes that are ignored (R123, R143, R165, R166,
R169). -/

namespace Sys2Proof.Machine

/-! ### SUBMIT -/

theorem finOf_val {n : Nat} (i : Fin n) : finOf n i.val = some i := dif_pos i.isLt

theorem finOf_of_le {n v : Nat} (h : n ≤ v) : finOf n v = none := dif_neg (Nat.not_lt.mpr h)

/-- Device Control's SUBMIT_ERROR set (R123). -/
def State.submitRefused (s : State) : State := { s with ctl := { s.ctl with submitError := true } }

section Submit

variable {s : State}

/-- An index below the ring's size becomes its producer index (R123). -/
theorem applySubmit_good {r : RingId} {index : Nat} (h : index < (s.ring r).size) :
    applySubmit s r.val index = s.modRing r (fun g => { g with producer := index }) := by
  unfold applySubmit
  rw [finOf_val]
  exact if_pos h

/-- A ring that does not exist, or an index past its size, is a SUBMIT_ERROR (R123). -/
theorem applySubmit_bad {ring index : Nat} (h : 4 ≤ ring ∨ ∃ r : RingId, ring = r.val ∧ (s.ring r).size ≤ index) :
    applySubmit s ring index = s.submitRefused := by
  unfold applySubmit
  rcases h with h | ⟨r, rfl, h⟩
  · rw [finOf_of_le h]
    rfl
  · rw [finOf_val]
    exact if_neg (Nat.not_lt.mpr h)

/-- Outside ENABLING a SUBMIT is checked against the geometry in force (R123). -/
theorem exec_submitWrite_applied (v : BitVec 32) (h : s.ctl.device ≠ .enabling) :
    exec (.submitWrite v) s = .next (applySubmit s (v.extractLsb' 16 8).toNat (v.extractLsb' 0 16).toNat) := by
  cases hd : s.ctl.device with
  | enabling => exact absurd hd h
  | off | running | quiescing | halted | fault => simp [exec, execSubmitWrite, hd]

/-- During ENABLING a SUBMIT is kept unchecked, one for each ring (R123). -/
theorem exec_submitWrite_kept {v : BitVec 32} {r : RingId} (h : s.ctl.device = .enabling)
    (hr : (v.extractLsb' 16 8).toNat = r.val) : exec (.submitWrite v) s = .next { s with ctl :=
      { s.ctl with keptSubmit := s.ctl.keptSubmit.set r.val (some (v.extractLsb' 0 16)) } } := by
  simp only [exec, execSubmitWrite, h, hr, finOf_val]

theorem exec_submitWrite_dropped {v : BitVec 32} (h : s.ctl.device = .enabling) (hr : 4 ≤ (v.extractLsb' 16 8).toNat) :
    exec (.submitWrite v) s = .next s.submitRefused := by
  simp only [exec, execSubmitWrite, h, finOf_of_le hr, State.submitRefused]

end Submit

/-! ### IRQ and STATUS -/

/-- A bit written as 1 is cleared, and one written as 0 stays (R143, R166). -/
theorem and_not_eq_ite (bit written : Bool) : (bit && !written) = if written then false else bit := by
  cases written
  · exact Bool.and_true bit
  · exact Bool.and_false bit

theorem exec_irqWrite (v : BitVec 32) (s : State) :
    exec (.irqWrite v) s = .next { s with ctl := { s.ctl with irq :=
      { cq := if v.getLsbD 0 then false else s.ctl.irq.cq
        fault := if v.getLsbD 1 then false else s.ctl.irq.fault
        halt := if v.getLsbD 2 then false else s.ctl.irq.halt } } } := by
  rw [← and_not_eq_ite, ← and_not_eq_ite, ← and_not_eq_ite]
  rfl

theorem exec_statusWrite (v : BitVec 32) (s : State) :
    exec (.statusWrite v) s = .next { s with ctl :=
      { s.ctl with
        submitError := if v.getLsbD 8 then false else s.ctl.submitError
        headError := if v.getLsbD 9 then false else s.ctl.headError } } := by
  rw [← and_not_eq_ite, ← and_not_eq_ite]
  rfl

/-! ### CONFIG_ADDR -/

/-- The half written is the word, and the other half stays (R165). -/
theorem setHalf_low (addr : BitVec 64) (v : BitVec 32) :
    (setHalf addr .low v).extractLsb' 0 32 = v ∧ (setHalf addr .low v).extractLsb' 32 32 = addr.extractLsb' 32 32 := by
  unfold setHalf
  exact ⟨BitVec.extractLsb'_append_eq_right, BitVec.extractLsb'_append_eq_left⟩

theorem setHalf_high (addr : BitVec 64) (v : BitVec 32) :
    (setHalf addr .high v).extractLsb' 32 32 = v ∧ (setHalf addr .high v).extractLsb' 0 32 = addr.extractLsb' 0 32 := by
  unfold setHalf
  exact ⟨BitVec.extractLsb'_append_eq_left, BitVec.extractLsb'_append_eq_right⟩

/-! ### Writes that are ignored -/

/-- A write of fewer than 32 bits, and one to an offset with no writable register, asks for nothing (R169). -/
theorem commandOfWrite_ignored {offset bits : Nat} (v : BitVec 32)
    (h : bits < 32 ∨ offset ∉ [0x00, 0x04, 0x08, 0x0C, 0x10, 0x14, 0x18]) :
    commandOfWrite offset bits v = .registerWriteIgnored offset bits v := by
  unfold commandOfWrite
  rcases h with h | h
  · exact if_pos h
  · simp only [List.mem_cons, List.not_mem_nil, or_false, not_or] at h
    simp [h]

/-- Settles O7, register by register. LANE_STATE's two offsets are among those with no writable register. -/
theorem registerWritesTakeEffect : Obligations.RegisterWritesTakeEffect := by
  refine ⟨fun v s => ⟨fun hd => ?_, fun hd => ?_⟩, exec_irqWrite, exec_statusWrite, fun v s => ?_, fun offset bits v s => ?_⟩
  · rw [exec_submitWrite_applied v hd]
    refine ⟨fun r hr hindex => ?_, fun hbad => congrArg _ (applySubmit_bad hbad)⟩
    rw [hr, applySubmit_good hindex]
  · exact ⟨fun r hr => exec_submitWrite_kept hd hr, exec_submitWrite_dropped hd⟩
  · obtain ⟨hlow, hlowKept⟩ := setHalf_low s.ctl.configAddr v
    obtain ⟨hhigh, hhighKept⟩ := setHalf_high s.ctl.configAddr v
    exact ⟨_, _, rfl, rfl, rfl, rfl, hlow, hlowKept, hhigh, hhighKept⟩
  · refine ⟨rfl, fun h => ?_⟩
    have hignored : bits < 32 ∨ offset ∉ [0x00, 0x04, 0x08, 0x0C, 0x10, 0x14, 0x18] := by
      rcases h with h | rfl | rfl | h
      · exact .inl h
      · exact .inr (by decide)
      · exact .inr (by decide)
      · exact .inr h
    rw [commandOfWrite_ignored v hignored]
    rfl

end Sys2Proof.Machine
end

section
/-! CERTIFICATES. The list checks: the first failing entry decides, and within an entry the first check that fails (R131). -/

namespace Sys2Proof.Machine

/-- Where entry `k` of a list must not begin before: the end of the entry before it, and `floor` for the first (R131). -/
def listFloor (floor : Nat) (list : List Segment) (k : Nat) : Nat :=
  if k = 0 then floor else match list[k - 1]? with
    | none => 0
    | some e => e.target.toNat + e.length

/-- The entries behind the first one stand above its end. -/
theorem listFloor_cons_succ (floor : Nat) (e : Segment) (rest : List Segment) (k : Nat) :
    listFloor floor (e :: rest) (k + 1) = listFloor (e.target.toNat + e.length) rest k := by
  cases k with
  | zero => rfl
  | succ k => rfl

/-- The checks of one entry in their order: length, end address, HAS_CRC of a VERIFY, order (R131). -/
theorem segmentFault_eq (verify : Bool) (floor : Nat) (e : Segment) : segmentFault verify floor e =
    if e.length = 0 ∨ 1048576 < e.length then some Detail.badCount
    else if 2 ^ 32 < e.target.toNat + e.length then some Detail.badParam
    else if verify = true ∧ e.hasCrc = false then some Detail.badParam
    else if e.target.toNat < floor then some Detail.badSegmentOrder
    else none := by
  have hlength : (e.length == 0 || decide (Config.mib < e.length)) = true ↔ e.length = 0 ∨ 1048576 < e.length := by
    rw [Bool.or_eq_true, beq_iff_eq, decide_eq_true_iff, Config.mib]
  have hcrc : (verify && !e.hasCrc) = true ↔ verify = true ∧ e.hasCrc = false := by
    rw [Bool.and_eq_true, Bool.not_eq_true']
  unfold segmentFault
  rw [if_congr hlength rfl rfl, if_congr hcrc rfl rfl]

/-- A list passes exactly when each of its entries does (R131). -/
theorem listFault_eq_none_iff (verify : Bool) (floor : Nat) (list : List Segment) : listFault verify floor list = none ↔
    ∀ (k : Nat) (e : Segment), list[k]? = some e → segmentFault verify (listFloor floor list k) e = none := by
  induction list generalizing floor with
  | nil => simp [listFault]
  | cons e rest ih =>
    have hcons : (∀ (k : Nat) (x : Segment), (e :: rest)[k]? = some x →
        segmentFault verify (listFloor floor (e :: rest) k) x = none) ↔
        segmentFault verify floor e = none ∧ listFault verify (e.target.toNat + e.length) rest = none := by
      rw [ih]
      constructor
      · exact fun h => ⟨h 0 e rfl, fun k x hx => by rw [← listFloor_cons_succ floor]; exact h (k + 1) x hx⟩
      · rintro ⟨hfirst, hrest⟩ k x hx
        cases k with
        | zero => exact Option.some.inj hx ▸ hfirst
        | succ k => rw [listFloor_cons_succ]; exact hrest k x hx
    rw [hcons, listFault]
    cases segmentFault verify floor e with
    | none => simp
    | some d => simp

/-- The first failing entry decides (R131). -/
theorem listFault_eq_some_iff (verify : Bool) (floor : Nat) (list : List Segment) (d : Detail) :
    listFault verify floor list = some d ↔ ∃ (k : Nat) (e : Segment), list[k]? = some e ∧
      segmentFault verify (listFloor floor list k) e = some d ∧
      ∀ (m : Nat) (x : Segment), m < k → list[m]? = some x → segmentFault verify (listFloor floor list m) x = none := by
  induction list generalizing floor with
  | nil => simp [listFault]
  | cons e rest ih =>
    rw [listFault]
    cases hfirst : segmentFault verify floor e with
    | some c =>
      constructor
      · exact fun h => ⟨0, e, rfl, hfirst.trans h, fun m _ hm => absurd hm (Nat.not_lt_zero m)⟩
      · rintro ⟨k, x, hx, hd, hbefore⟩
        cases k with
        | zero =>
          obtain rfl : e = x := Option.some.inj hx
          exact hfirst.symm.trans hd
        | succ k => exact absurd (hfirst.symm.trans (hbefore 0 e k.succ_pos rfl)) nofun
    | none =>
      refine (ih _).trans ⟨?_, ?_⟩
      · rintro ⟨k, x, hx, hd, hbefore⟩
        refine ⟨k + 1, x, hx, by rw [listFloor_cons_succ]; exact hd, fun m y hm hy => ?_⟩
        cases m with
        | zero => exact Option.some.inj hy ▸ hfirst
        | succ m => rw [listFloor_cons_succ]; exact hbefore m y (Nat.lt_of_succ_lt_succ hm) hy
      · rintro ⟨k, x, hx, hd, hbefore⟩
        cases k with
        | zero =>
          obtain rfl : e = x := Option.some.inj hx
          exact absurd (hfirst.symm.trans hd) nofun
        | succ k =>
          rw [listFloor_cons_succ] at hd
          refine ⟨k, x, hx, hd, fun m y hm hy => ?_⟩
          rw [← listFloor_cons_succ floor]
          exact hbefore (m + 1) y (Nat.succ_lt_succ hm) hy

/-- Settles O18: both by the entry's checks, for the list as a whole. -/
theorem listChecksFirstFailingEntry : Obligations.ListChecksFirstFailingEntry := by
  intro verify list stop fault
  have hfault : ∀ (k : Nat) (e : Segment), fault k e = segmentFault verify (listFloor 0 list k) e :=
    fun k e => (segmentFault_eq verify (stop k) e).symm
  simp only [hfault]
  exact ⟨listFault_eq_none_iff verify 0 list, listFault_eq_some_iff verify 0 list⟩

end Sys2Proof.Machine
end

section
/-! CERTIFICATES. Field validation of a job record: its five checks in their order, and the job that a record becomes
(R52, R127, 11.2). -/

namespace Sys2Proof.Machine

/-! ### Fields of a record -/

/-- A little-endian number of `n` bytes is below 256 to the `n`. -/
theorem leNat_lt (bs : List Byte) : leNat bs < 256 ^ bs.length := by
  induction bs with
  | nil => simp [leNat]
  | cons b bs ih =>
    have hb := b.isLt
    have hstep : leNat (b :: bs) = b.toNat + 256 * leNat bs := rfl
    rw [hstep, List.length_cons, Nat.pow_succ]
    omega

/-- A field of `len` bytes is below 256 to the `len`. -/
theorem leField_lt (bs : List Byte) (off len : Nat) : leField bs off len < 256 ^ len :=
  (leNat_lt _).trans_le (Nat.pow_le_pow_right (by omega) (by simp [slice]))

/-- A field of `len` bytes goes whole into a word of as many bits. -/
theorem toNat_leField {w len : Nat} (h : 256 ^ len = 2 ^ w) (bs : List Byte) (off : Nat) :
    (BitVec.ofNat w (leField bs off len)).toNat = leField bs off len := by
  rw [BitVec.toNat_ofNat, Nat.mod_eq_of_lt]
  exact (leField_lt bs off len).trans_eq h

theorem finOf_of_lt {n v : Nat} (h : v < n) : finOf n v = some ⟨v, h⟩ := dif_pos h

/-! ### The kind of a record -/

/-- The kind code of a job kind (11.2). -/
def JobKind.number : JobKind → Nat
  | .attach => 1
  | .detach => 2
  | .erase => 3
  | .program => 4
  | .verify => 5
  | .readback => 6
  | .protect => 7
  | .barrier => 8
  | .loadCredential => 9
  | .clearCredential => 10
  | .abort => 11

/-- Only its own code names a kind (11.2). -/
theorem JobKind.number_eq {n : Nat} {k : JobKind} (h : JobKind.ofCode n = some k) : n = k.number := by
  unfold JobKind.ofCode at h
  split at h
  case h_12 => cases h
  all_goals exact Option.some.inj h ▸ rfl

/-- The codes 1 to 11 name kinds, and no other does (R127, BAD_KIND). -/
theorem JobKind.ofCode_eq_none_iff (n : Nat) : JobKind.ofCode n = none ↔ n = 0 ∨ 11 < n := by
  refine ⟨fun h => ?_, ?_⟩
  · by_contra hn
    obtain ⟨hlow, hhigh⟩ : 1 ≤ n ∧ n ≤ 11 := by omega
    interval_cases n <;> cases h
  · rintro (rfl | h)
    · rfl
    · cases hk : JobKind.ofCode n with
      | none => rfl
      | some k =>
        have hle : k.number ≤ 11 := by cases k <;> decide
        exact absurd (JobKind.number_eq hk ▸ h) (Nat.not_lt.mpr hle)

section Kind

variable {kind : Nat} {k : JobKind} (hk : JobKind.ofCode kind = some k)
include hk

theorem JobKind.hasLanes_iff : k.hasLanes = true ↔ kind ≤ 7 := by
  obtain rfl := JobKind.number_eq hk
  cases k <;> decide

/-- The lane set is empty for a kind that names lanes, or not empty for one that names none (R127, BAD_LANES). -/
theorem badLanes_iff {lanes : Nat} (h : lanes < 2 ^ 16) : ((BitVec.ofNat 16 lanes == 0) == k.hasLanes) = true ↔
    (kind ≤ 7 ∧ lanes = 0) ∨ (8 ≤ kind ∧ lanes ≠ 0) := by
  have hzero : (BitVec.ofNat 16 lanes == 0) = true ↔ lanes = 0 := by
    rw [beq_iff_eq, ← BitVec.toNat_inj, BitVec.toNat_ofNat, Nat.mod_eq_of_lt h]
    rfl
  have hlanes := JobKind.hasLanes_iff hk
  rw [beq_iff_eq, Bool.eq_iff_iff, hzero, hlanes]
  omega

/-- The list count is not one that the kind takes (R127, BAD_COUNT). -/
theorem badCount_iff (eraseAll : Bool) (count : Nat) : (!countAllowed k eraseAll count) = true ↔
    ((kind = 4 ∨ kind = 5 ∨ (kind = 3 ∧ eraseAll = false)) ∧ ¬ (1 ≤ count ∧ count ≤ 16)) ∨
    (kind = 9 ∧ count ≠ 1) ∨
    ((kind = 1 ∨ kind = 2 ∨ (kind = 3 ∧ eraseAll = true) ∨ kind = 6 ∨ kind = 7 ∨ kind = 8 ∨ 10 ≤ kind) ∧ count ≠ 0) := by
  obtain rfl := JobKind.number_eq hk
  cases k with
  | erase => cases eraseAll <;> simp [countAllowed, JobKind.number, imp_iff_not_or]
  | _ => simp [countAllowed, JobKind.number, imp_iff_not_or]

/-- An address is not aligned: the list's to 8 bytes, or the results' to 16 where the kind names lanes (R127, BAD_ALIGN). -/
theorem badAlign_iff (count listAddr resultAddr : Nat) :
    (0 < count && listAddr % 8 != 0 || k.hasLanes && resultAddr % 16 != 0) = true ↔
      (0 < count ∧ listAddr % 8 ≠ 0) ∨ (kind ≤ 7 ∧ resultAddr % 16 ≠ 0) := by
  simp [JobKind.hasLanes_iff hk]

end Kind

/-! ### The parameters of a record -/

/-- The parameters in the record are in the ranges of its kind (R127, BAD_PARAM). -/
def JobKind.inRange (bs : List Byte) : JobKind → Prop
  | .attach => leField bs 32 1 ≤ 7 ∧ leField bs 33 1 ≤ 7 ∧ 1 ≤ leField bs 34 2 ∧ leField bs 34 2 ≤ 1000 ∧
      1 ≤ leField bs 36 1 ∧ (leField bs 37 1 ≤ 7 ∨ leField bs 37 1 = 0x10 ∨ leField bs 37 1 = 0x11) ∧
      1 ≤ leField bs 38 2 ∧ leField bs 38 2 ≤ 1000 ∧ leField bs 42 2 ≤ 6000 ∧ leField bs 40 2 ≤ leField bs 42 2
  | .readback => 1 ≤ leField bs 36 4 ∧ leField bs 36 4 ≤ 1048576 ∧ leField bs 36 4 ≤ leField bs 48 4
  | .protect => leField bs 32 1 = 1 ∨ leField bs 32 1 = 2
  | .loadCredential => leField bs 32 1 ≤ 7 ∧ 4 ≤ leField bs 33 1 ∧ leField bs 33 1 ≤ 32
  | .clearCredential => leField bs 32 1 ≤ 7 ∨ leField bs 32 1 = 0xFF
  | .abort => leField bs 32 1 ≤ 3
  | .detach | .erase | .program | .verify | .barrier => True

/-- The parameters of an ATTACH are those in the record (11.2). -/
def AttachParams.readFrom (bs : List Byte) (p : AttachParams) : Prop :=
  p.startRate.val = leField bs 32 1 ∧ p.targetRate.val = leField bs 33 1 ∧ p.powerSettle = leField bs 34 2 ∧
    p.resetPulse = leField bs 36 1 ∧ p.bootSettle = leField bs 38 2 ∧ p.vmin = leField bs 40 2 ∧
    p.vmax = leField bs 42 2 ∧ (leField bs 37 1 = 0x10 → p.selector = .auto) ∧
    (leField bs 37 1 = 0x11 → p.selector = .none) ∧ ∀ e : CredId, leField bs 37 1 = e.val → p.selector = .entry e

/-- The parameters of a job are those in the record (11.2). -/
def Params.readFrom (bs : List Byte) : Params → Prop
  | .attach p => p.readFrom bs
  | .detach e => e.toNat = leField bs 32 4
  | .readback a len d stride =>
    len = leField bs 36 4 ∧ stride = leField bs 48 4 ∧ a.toNat = leField bs 32 4 ∧ d.toNat = leField bs 40 8
  | .protect l => l.toNat = leField bs 32 1
  | .loadCredential e len c m =>
    len = leField bs 33 1 ∧ e.val = leField bs 32 1 ∧ c.toNat = leField bs 34 2 ∧ m.toNat = leField bs 36 2
  | .clearCredential e => (leField bs 32 1 = 0xFF → e = none) ∧ ∀ c : CredId, leField bs 32 1 = c.val → e = some c
  | .abort r t => r.val = leField bs 32 1 ∧ t.toNat = leField bs 34 2
  | .erase | .program | .verify | .barrier => True

/-- A selector byte names an entry, AUTO or NONE, and any other names nothing (R100). -/
theorem parseSelector_of_named {v : Nat} (h : v ≤ 7 ∨ v = 0x10 ∨ v = 0x11) : ∃ sel : Selector,
    parseSelector v = some sel ∧ (v = 0x10 → sel = .auto) ∧ (v = 0x11 → sel = .none) ∧
      ∀ e : CredId, v = e.val → sel = .entry e := by
  rcases h with h | rfl | rfl
  · have hauto : (v == 0x10) = false := beq_false_of_ne (by omega)
    have hnone : (v == 0x11) = false := beq_false_of_ne (by omega)
    refine ⟨.entry ⟨v, Nat.lt_succ_of_le h⟩, ?_, by omega, by omega, fun e he => congrArg _ (Fin.ext he)⟩
    unfold parseSelector
    rw [hauto, hnone, finOf_of_lt (Nat.lt_succ_of_le h)]
    rfl
  · exact ⟨.auto, rfl, fun _ => rfl, nofun, fun e he => by omega⟩
  · exact ⟨.none, rfl, nofun, fun _ => rfl, fun e he => by omega⟩

theorem parseSelector_of_unnamed {v : Nat} (h : ¬ (v ≤ 7 ∨ v = 0x10 ∨ v = 0x11)) : parseSelector v = none := by
  have hauto : (v == 0x10) = false := beq_false_of_ne (by omega)
  have hnone : (v == 0x11) = false := beq_false_of_ne (by omega)
  unfold parseSelector
  rw [hauto, hnone, finOf_of_le (by omega)]
  rfl

section Parse

variable (bs : List Byte)

/-- What `parse` answers for a record is the parameters of the kind, read from it, exactly where they are in range. -/
def ParsesAs (k : JobKind) (parsed : Option Params) : Prop :=
  (¬ k.inRange bs → parsed = none) ∧ (k.inRange bs → ∃ p : Params, parsed = some p ∧ p.kind = k ∧ p.readFrom bs)

/-- The parameters of an ATTACH (R127). -/
theorem parseAttach_parses : ParsesAs bs .attach ((parseAttach bs).map Params.attach) := by
  refine ⟨fun h => ?_, fun h => ?_⟩
  · unfold parseAttach
    split
    · next start target sel hstart htarget hsel =>
      dsimp only
      rw [if_neg, Option.map_none]
      intro hin
      have hrate : ∀ {v : Nat}, finOf 8 v ≠ none → v ≤ 7 := fun hv => by
        by_contra hlt
        exact hv (finOf_of_le (by omega))
      have hnamed : leField bs 37 1 ≤ 7 ∨ leField bs 37 1 = 0x10 ∨ leField bs 37 1 = 0x11 := by
        by_contra hn
        rw [parseSelector_of_unnamed hn] at hsel
        cases hsel
      simp only [Bool.and_eq_true, decide_eq_true_eq, and_assoc] at hin
      obtain ⟨h1, h2, h3, -, h5, h6, h7, h8⟩ := hin
      exact h ⟨hrate (by rw [hstart]; exact nofun), hrate (by rw [htarget]; exact nofun), h1, h2, h3, hnamed, h5, h6, h7, h8⟩
    · rfl
  · obtain ⟨hstart, htarget, h1, h2, h3, hsel, h5, h6, h7, h8⟩ := h
    obtain ⟨sel, hparse, hnamed⟩ := parseSelector_of_named hsel
    have hpulse : leField bs 36 1 ≤ 255 := Nat.le_of_lt_succ (leField_lt bs 36 1)
    have hattach : parseAttach bs = some
        { startRate := ⟨leField bs 32 1, Nat.lt_succ_of_le hstart⟩
          targetRate := ⟨leField bs 33 1, Nat.lt_succ_of_le htarget⟩
          powerSettle := leField bs 34 2, resetPulse := leField bs 36 1, bootSettle := leField bs 38 2
          vmin := leField bs 40 2, vmax := leField bs 42 2, selector := sel } := by
      unfold parseAttach
      rw [finOf_of_lt (Nat.lt_succ_of_le hstart), finOf_of_lt (Nat.lt_succ_of_le htarget), hparse]
      refine if_pos ?_
      simp only [Bool.and_eq_true, decide_eq_true_eq, and_assoc]
      exact ⟨h1, h2, h3, hpulse, h5, h6, h7, h8⟩
    rw [hattach]
    exact ⟨_, rfl, rfl, rfl, rfl, rfl, rfl, rfl, rfl, rfl, hnamed⟩

/-- The parameters of a record of kind `k` (R127, BAD_PARAM). -/
theorem parseParams_parses (k : JobKind) : ParsesAs bs k (parseParams k bs) := by
  have hword : (BitVec.ofNat 32 (leField bs 32 4)).toNat = leField bs 32 4 := toNat_leField (by decide) bs 32
  have htag : (BitVec.ofNat 16 (leField bs 34 2)).toNat = leField bs 34 2 := toNat_leField (by decide) bs 34
  have hmask : (BitVec.ofNat 16 (leField bs 36 2)).toNat = leField bs 36 2 := toNat_leField (by decide) bs 36
  cases k with
  | attach => exact parseAttach_parses bs
  | detach => exact ⟨fun h => absurd trivial h, fun _ => ⟨_, rfl, rfl, hword⟩⟩
  | erase | program | verify | barrier => exact ⟨fun h => absurd trivial h, fun _ => ⟨_, rfl, rfl, trivial⟩⟩
  | readback =>
    have hrange : (1 ≤ leField bs 36 4 && leField bs 36 4 ≤ Config.mib && leField bs 36 4 ≤ leField bs 48 4) = true ↔
        JobKind.inRange bs .readback := by
      rw [Bool.and_eq_true, Bool.and_eq_true, decide_eq_true_iff, decide_eq_true_iff, decide_eq_true_iff, and_assoc]
      exact Iff.rfl
    refine ⟨fun h => if_neg (mt hrange.mp h), fun h => ⟨_, if_pos (hrange.mpr h), rfl, rfl, rfl, hword, ?_⟩⟩
    exact toNat_leField (by decide) bs 40
  | protect =>
    have hrange : (leField bs 32 1 == 1 || leField bs 32 1 == 2) = true ↔ JobKind.inRange bs .protect := by
      simp [JobKind.inRange]
    refine ⟨fun h => if_neg (mt hrange.mp h), fun h => ⟨_, if_pos (hrange.mpr h), rfl, ?_⟩⟩
    exact toNat_leField (by decide) bs 32
  | loadCredential =>
    have hlen : (4 ≤ leField bs 33 1 && leField bs 33 1 ≤ 32) = true ↔ 4 ≤ leField bs 33 1 ∧ leField bs 33 1 ≤ 32 := by
      simp
    by_cases he : leField bs 32 1 < 8
    · have hparse : parseParams .loadCredential bs = if 4 ≤ leField bs 33 1 && leField bs 33 1 ≤ 32 then
          some (.loadCredential ⟨_, he⟩ (leField bs 33 1) (BitVec.ofNat 16 (leField bs 34 2))
            (BitVec.ofNat 16 (leField bs 36 2))) else none := by
        simp only [parseParams, finOf_of_lt he]
      rw [hparse]
      refine ⟨fun h => if_neg fun hin => h ⟨Nat.le_of_lt_succ he, hlen.mp hin⟩, fun h => ?_⟩
      exact ⟨_, if_pos (hlen.mpr h.2), rfl, rfl, rfl, htag, hmask⟩
    · refine ⟨fun _ => ?_, fun h => absurd (Nat.lt_succ_of_le h.1) he⟩
      simp only [parseParams, finOf_of_le (Nat.le_of_not_lt he)]
  | clearCredential =>
    by_cases hall : leField bs 32 1 = 0xFF
    · refine ⟨fun h => absurd (.inr hall) h, fun _ => ⟨_, if_pos (beq_iff_eq.mpr hall), rfl, fun _ => rfl, ?_⟩⟩
      intro c hc
      omega
    · have hparse : parseParams .clearCredential bs =
          (finOf 8 (leField bs 32 1)).map (fun e => Params.clearCredential (some e)) :=
        if_neg fun h => hall (beq_iff_eq.mp h)
      rw [hparse]
      by_cases he : leField bs 32 1 < 8
      · rw [finOf_of_lt he]
        refine ⟨fun h => absurd (.inl (Nat.le_of_lt_succ he)) h, fun _ => ⟨_, rfl, rfl, fun h => absurd h hall, ?_⟩⟩
        exact fun c hc => congrArg some (Fin.ext hc)
      · rw [finOf_of_le (Nat.le_of_not_lt he)]
        refine ⟨fun _ => rfl, fun h => ?_⟩
        rcases h with h | h
        · exact absurd (Nat.lt_succ_of_le h) he
        · exact absurd h hall
  | abort =>
    have hparse : parseParams .abort bs =
        (finOf 4 (leField bs 32 1)).map (fun r => Params.abort r (BitVec.ofNat 16 (leField bs 34 2))) := rfl
    rw [hparse]
    by_cases hr : leField bs 32 1 < 4
    · rw [finOf_of_lt hr]
      exact ⟨fun h => absurd (Nat.le_of_lt_succ hr) h, fun _ => ⟨_, rfl, rfl, rfl, htag⟩⟩
    · rw [finOf_of_le (Nat.le_of_not_lt hr)]
      exact ⟨fun _ => rfl, fun h => absurd (Nat.lt_succ_of_le h) hr⟩

end Parse

/-- What the parameters read from a record are, by the record's kind code (11.2). -/
theorem Params.readFrom.byKind {bs : List Byte} {p : Params} (h : p.readFrom bs) :
    (p.kind.number = 1 → ∃ a : AttachParams, p = .attach a ∧ a.readFrom bs) ∧
    (p.kind.number = 2 → ∃ e : BitVec 32, p = .detach e ∧ e.toNat = leField bs 32 4) ∧
    (p.kind.number = 6 → ∃ (a : BitVec 32) (d : BitVec 64), p = .readback a (leField bs 36 4) d (leField bs 48 4) ∧
      a.toNat = leField bs 32 4 ∧ d.toNat = leField bs 40 8) ∧
    (p.kind.number = 7 → ∃ l : BitVec 8, p = .protect l ∧ l.toNat = leField bs 32 1) ∧
    (p.kind.number = 9 → ∃ (e : CredId) (c m : BitVec 16), p = .loadCredential e (leField bs 33 1) c m ∧
      e.val = leField bs 32 1 ∧ c.toNat = leField bs 34 2 ∧ m.toNat = leField bs 36 2) ∧
    (p.kind.number = 10 → (leField bs 32 1 = 0xFF → p = .clearCredential none) ∧
      ∀ e : CredId, leField bs 32 1 = e.val → p = .clearCredential (some e)) ∧
    (p.kind.number = 11 → ∃ (r : RingId) (t : BitVec 16), p = .abort r t ∧ r.val = leField bs 32 1 ∧
      t.toNat = leField bs 34 2) := by
  cases p with
  | attach a => exact ⟨fun _ => ⟨a, rfl, h⟩, nofun, nofun, nofun, nofun, nofun, nofun⟩
  | detach e => exact ⟨nofun, fun _ => ⟨e, rfl, h⟩, nofun, nofun, nofun, nofun, nofun⟩
  | erase | program | verify | barrier => exact ⟨nofun, nofun, nofun, nofun, nofun, nofun, nofun⟩
  | readback a len d stride =>
    obtain ⟨rfl, rfl, ha, hd⟩ := h
    exact ⟨nofun, nofun, fun _ => ⟨a, d, rfl, ha, hd⟩, nofun, nofun, nofun, nofun⟩
  | protect l => exact ⟨nofun, nofun, nofun, fun _ => ⟨l, rfl, h⟩, nofun, nofun, nofun⟩
  | loadCredential e len c m =>
    obtain ⟨rfl, he, hc, hm⟩ := h
    exact ⟨nofun, nofun, nofun, nofun, fun _ => ⟨e, c, m, rfl, he, hc, hm⟩, nofun, nofun⟩
  | clearCredential e =>
    obtain ⟨hall, hone⟩ := h
    refine ⟨nofun, nofun, nofun, nofun, nofun, fun _ => ⟨fun hv => ?_, fun c hc => ?_⟩, nofun⟩
    · rw [hall hv]
    · rw [hone c hc]
  | abort r t =>
    obtain ⟨hr, ht⟩ := h
    exact ⟨nofun, nofun, nofun, nofun, nofun, nofun, fun _ => ⟨r, t, rfl, hr, ht⟩⟩

/-! ### The five checks in their order -/

/-- The job that a record becomes, with the parameters of its kind (11.2). -/
def recordJob (bs : List Byte) (p : Params) : JobSpec where
  tag := recordTag bs
  lanes := BitVec.ofNat 16 (leField bs 4 2)
  flags := BitVec.ofNat 16 (leField bs 6 2)
  retryLimit := leField bs 1 1
  listAddr := BitVec.ofNat 64 (leField bs 8 8)
  listCount := leField bs 16 1
  resultAddr := BitVec.ofNat 64 (leField bs 24 8)
  params := p

/-- The checks of R127 behind the first, for a record of kind `k`. -/
theorem validate_of_kind {bs : List Byte} {k : JobKind} (hk : JobKind.ofCode (leField bs 0 1) = some k) : validate bs =
    if (BitVec.ofNat 16 (leField bs 4 2) == 0) == k.hasLanes then .error .badLanes
    else if !countAllowed k ((BitVec.ofNat 16 (leField bs 6 2)).getLsbD 2) (leField bs 16 1) then .error .badCount
    else if 7 < leField bs 1 1 then .error .badParam
    else match parseParams k bs with
      | none => .error .badParam
      | some p =>
        if 0 < leField bs 16 1 && leField bs 8 8 % 8 != 0 || k.hasLanes && leField bs 24 8 % 16 != 0 then
          .error .badAlign
        else .ok (recordJob bs p) := by
  unfold validate
  rw [hk]
  rfl

/-- The parameters that a record of its kind cannot have: a retry limit above 7, or one out of its range (R127). -/
theorem badParam_iff {bs : List Byte} {kind : Nat} {k : JobKind} (hk : JobKind.ofCode kind = some k) :
    (7 < leField bs 1 1 ∨ ¬ k.inRange bs) ↔
      7 < leField bs 1 1 ∨ (kind = 1 ∧ ¬ JobKind.inRange bs .attach) ∨ (kind = 6 ∧ ¬ JobKind.inRange bs .readback) ∨
      (kind = 7 ∧ ¬ JobKind.inRange bs .protect) ∨ (kind = 9 ∧ ¬ JobKind.inRange bs .loadCredential) ∨
      (kind = 10 ∧ ¬ JobKind.inRange bs .clearCredential) ∨ (kind = 11 ∧ ¬ JobKind.inRange bs .abort) := by
  refine or_congr_right ?_
  obtain rfl := JobKind.number_eq hk
  cases k with
  | attach | readback | protect | loadCredential | clearCredential | abort => simp [JobKind.number]
  | detach | erase | program | verify | barrier => simp [JobKind.number, JobKind.inRange]

/-- Settles O13: the kind first; a record of a kind goes through the checks of that kind one after the other, and its
fields are read whole into the job. -/
theorem recordValidationOrder : Obligations.RecordValidationOrder := by
  intro bs _ kind retry lanes eraseAll listAddr count resultAddr badKind badLanes badCount badParam badAlign
  cases hk : JobKind.ofCode kind with
  | none =>
    have hbad : badKind := (JobKind.ofCode_eq_none_iff kind).mp hk
    have hkind : validate bs = .error .badKind := by
      unfold validate
      rw [show JobKind.ofCode (leField bs 0 1) = none from hk]
    exact ⟨fun _ => hkind, fun h => absurd hbad h, fun h => absurd hbad h, fun h => absurd hbad h,
      fun h => absurd hbad h, fun h => absurd hbad h⟩
  | some k =>
    have hgood : ¬ badKind := fun h => by rw [(JobKind.ofCode_eq_none_iff kind).mpr h] at hk; cases hk
    have hlanes := badLanes_iff hk (leField_lt bs 4 2)
    have hcount := badCount_iff hk eraseAll count
    have halign := badAlign_iff hk count listAddr resultAddr
    have hparam : 7 < retry ∨ ¬ k.inRange bs ↔ badParam := badParam_iff hk
    obtain ⟨hout, hin⟩ := parseParams_parses bs k
    rw [validate_of_kind hk]
    refine ⟨fun h => absurd h hgood, fun _ hl => if_pos (hlanes.mpr hl), fun _ hl hc => ?_, fun _ hl hc hp => ?_,
      fun _ hl hc hp ha => ?_, fun _ hl hc hp ha => ?_⟩
    all_goals rw [if_neg (mt hlanes.mp hl)]
    · exact if_pos (hcount.mpr hc)
    all_goals rw [if_neg (mt hcount.mp hc)]
    · split
      · rfl
      · next hretry => rw [hout ((hparam.mpr hp).resolve_left hretry)]
    all_goals
      obtain ⟨hretry, hrange⟩ := not_or.mp (mt hparam.mp hp)
      obtain ⟨p, hparse, hpkind, hread⟩ := hin (not_not.mp hrange)
      rw [if_neg hretry, hparse]
      dsimp only
    · exact if_pos (halign.mpr ha)
    · refine ⟨recordJob bs p, if_neg (mt halign.mp ha), toNat_leField (by decide) bs 2, toNat_leField (by decide) bs 4,
        toNat_leField (by decide) bs 6, rfl, toNat_leField (by decide) bs 8, rfl, toNat_leField (by decide) bs 24,
        congrArg some hpkind.symm, ?_⟩
      have hnumber : kind = p.kind.number := hpkind ▸ JobKind.number_eq hk
      rw [hnumber]
      exact hread.byKind

end Sys2Proof.Machine
end

section
/-! CERTIFICATES. A record that has been read: completed at intake, held, or claimed and placed (R54, R57, R74, R127, R128,
R130 to R133). -/

namespace Sys2Proof.Machine

/-! ### A record that is refused -/

section Refused

variable {s : State} {r : RingId} {bytes : List Byte}

/-- A record read that ends good brings a record to be taken (R126). -/
theorem exec_recordReadEnd_good {a : BitVec 64} (he : s.intake.engine = .recordRead r a) (hd : s.ctl.device ≠ .fault)
    (hl : bytes.length = 64) : exec (.recordReadEnd .live (.good bytes)) s = .next (takeRecord s r bytes) := by
  simp [exec, execRecordReadEnd, he, hd, hl]

/-- A record that fails field validation is completed INVALID (R127). -/
theorem takeRecord_invalid {d : Detail} (h : validate bytes = .error d) :
    takeRecord s r bytes = postIntake s (recordCompletion r bytes .invalid d) := by
  unfold takeRecord
  rw [h]

/-- A record whose tag a slot job of its ring carries is completed DUP_TAG (R128). -/
theorem takeRecord_dupTag {j : JobSpec} {n : SlotId} {k : Job} (h : validate bytes = .ok j) (hk : s.slot n = some k)
    (hr : k.ring = r) (ht : k.spec.tag = j.tag) :
    takeRecord s r bytes = postIntake s (recordCompletion r bytes .dupTag .none) := by
  have hheld : tagHeld s r j.tag = true := List.any_eq_true.mpr ⟨n, mem_allSlots n, by simp [hk, hr, ht]⟩
  unfold takeRecord
  rw [h]
  exact if_pos hheld

end Refused

/-- Settles O14: the record is refused by a check or by its tag, and its completion is posted. -/
theorem refusedRecordCompletesAtIntake : Obligations.RefusedRecordCompletesAtIntake := by
  intro s r a bytes st d he hd hl hrefused c
  have hexec : exec (.recordReadEnd .live (.good bytes)) s = .next (postIntake s c) := by
    rw [exec_recordReadEnd_good he hd hl]
    rcases hrefused with ⟨hv, rfl⟩ | ⟨j, n, k, hv, hk, hr, ht, rfl, rfl⟩
    · rw [takeRecord_invalid hv]
      rfl
    · rw [takeRecord_dupTag hv hk hr ht]
      rfl
  rw [hexec]
  refine ⟨fun hopen => ?_, fun hfull hwait => ?_⟩
  · have hwait : .engine ∉ s.writer.waitList := by
      rw [hopen.2.1]
      exact List.not_mem_nil
    rcases postIntake_posts hwait c with ⟨-, h⟩ | ⟨h, -⟩
    · rw [h]
    · exact absurd hopen h
  · rcases postIntake_posts hwait c with ⟨h, -⟩ | ⟨-, h⟩
    · exact absurd h hfull
    · rw [h]

/-! ### Slots and room -/

section Examine

variable {s : State} {r : RingId} {j : JobSpec} {n : SlotId}

theorem freeSlotNumber_eq_none (h : ∀ n : SlotId, s.slot n ≠ none) : freeSlotNumber s = none :=
  List.find?_eq_none.mpr fun n _ => by simpa using h n

/-- The lowest-numbered FREE slot is the one that is found (R54). -/
theorem freeSlotNumber_eq_some (h : s.lowestFree n) : freeSlotNumber s = some n := by
  obtain ⟨hfree, hbelow⟩ := h
  unfold freeSlotNumber
  rw [List.find?_eq_some_iff_getElem]
  refine ⟨by simp [hfree], n.val, by simp [allSlots], by simp [allSlots], fun m hm => ?_⟩
  have hused := hbelow ⟨m, hm.trans n.isLt⟩ hm
  simpa [allSlots, Option.isSome_iff_ne_none] using hused

/-- With a slot FREE, some slot is the lowest-numbered one. -/
theorem exists_freeSlotNumber (h : ∃ n : SlotId, s.slot n = none) : ∃ n : SlotId, freeSlotNumber s = some n := by
  obtain ⟨n, hn⟩ := h
  refine Option.ne_none_iff_exists'.mp fun hnone => ?_
  exact absurd hn (by simpa using List.find?_eq_none.mp hnone n (mem_allSlots n))

/-- A lane queue has room where fewer than 4 places are taken (R130). -/
theorem hasRoom_iff (s : State) (i : LaneId) : hasRoom s i = true ↔ s.placesTaken i < 4 := by
  unfold hasRoom State.placesTaken reservations
  rw [decide_eq_true_iff, List.countP_eq_length_filter]
  exact Iff.rfl

/-- Every lane of the set has room (R130). -/
theorem lanesHaveRoom_iff (s : State) (m : BitVec 16) :
    (lanesOf m).all (hasRoom s) = true ↔ ∀ i : LaneId, inSet m i = true → s.placesTaken i < 4 := by
  simp only [List.all_eq_true, mem_lanesOf, hasRoom_iff]

/-- With no slot FREE the record is held on SLOT (R130). -/
theorem examine_noSlot (h : ∀ n : SlotId, s.slot n ≠ none) : examine s r j = holdEntry s r j .slot := by
  unfold examine
  rw [freeSlotNumber_eq_none h]

/-- With no room on some lane of its set the record is held on LANE_QUEUE (R130). -/
theorem examine_noRoom (h : ∃ n : SlotId, s.slot n = none)
    (hfull : ∃ i : LaneId, inSet j.lanes i = true ∧ 4 ≤ s.placesTaken i) : examine s r j = holdEntry s r j .laneQueue := by
  obtain ⟨n, hn⟩ := exists_freeSlotNumber h
  obtain ⟨i, hi, hplaces⟩ := hfull
  unfold examine
  rw [hn]
  refine if_neg fun hroom => ?_
  exact absurd ((lanesHaveRoom_iff s j.lanes).mp hroom i hi) (Nat.not_lt.mpr hplaces)

/-- With a slot FREE and room on every lane the record is claimed (R130). -/
theorem examine_claim (h : s.lowestFree n) (hroom : ∀ i : LaneId, inSet j.lanes i = true → s.placesTaken i < 4) :
    examine s r j = claim s r j n := by
  unfold examine
  rw [freeSlotNumber_eq_some h]
  exact if_pos ((lanesHaveRoom_iff s j.lanes).mpr hroom)

/-- A record of a kind that takes a slot is examined (R127 to R130). -/
theorem State.recordTaken.exec_examine {bytes : List Byte} (h : s.recordTaken r bytes j) (habort : j.params.kind ≠ .abort)
    (hload : j.params.kind ≠ .loadCredential) (hclear : j.params.kind ≠ .clearCredential) :
    exec (.recordReadEnd .live (.good bytes)) s = .next (examine s r j) := by
  rw [h.exec_eq, takeRecord, h.validate_eq]
  dsimp only
  rw [h.tag_free, if_neg Bool.false_ne_true]
  split
  case h_1 hp => exact absurd (congrArg Params.kind hp) habort
  case h_2 hp => exact absurd (congrArg Params.kind hp) hclear
  case h_3 hp => exact absurd (congrArg Params.kind hp) hload
  all_goals rfl

/-! ### The claim -/

/-- The kinds whose list is read after the claim (R131). -/
theorem JobSpec.hasList_iff (j : JobSpec) :
    j.hasList = true ↔ j.params = .program ∨ j.params = .verify ∨ (j.params = .erase ∧ 0 < j.listCount) := by
  unfold JobSpec.hasList
  cases j.params <;> simp [Params.kind]

/-- A job with a list is put into its slot in INTAKE (R130, R131). -/
theorem claim_list (h : j.hasList = true) : claim s r j n = s.withClaim r j n := if_pos h

/-- A job without a list is placed as soon as it is in its slot (R130). -/
theorem claim_noList (h : j.hasList = false) : claim s r j n = place (s.withClaim r j n) n :=
  if_neg (by rw [h]; exact Bool.false_ne_true)

theorem withClaim_slot_self : (s.withClaim r j n).slot n = some (newJob r j) := State.slot_setSlot_self s n _

theorem withClaim_slot_ne {m : SlotId} (h : m ≠ n) : (s.withClaim r j n).slot m = s.slot m := State.slot_setSlot_ne s h _

theorem withClaim_ring_self : (s.withClaim r j n).ring r = { s.ring r with
    consumer := ((s.ring r).consumer + 1) % (s.ring r).size, held := none, blocked := .none } :=
  State.ring_modRing_self s r fun g => { g.advance with held := none, blocked := .none }

theorem withClaim_ring_ne {q : RingId} (h : q ≠ r) : (s.withClaim r j n).ring q = s.ring q :=
  State.ring_modRing_ne s h fun g => { g.advance with held := none, blocked := .none }

end Examine

/-! ### Placement -/

/-- Ring `r` is no longer in intake (R132). -/
def State.leaveIntake (s : State) (r : RingId) : State := s.modRing r (fun g => { g with inIntake := false })

/-- The job of slot `n` stands at the tail of the queue of every lane of the set (R57). -/
def State.atTails (s : State) (m : BitVec 16) (n : SlotId) : State :=
  { s with lanes := Vector.ofFn fun i : LaneId =>
      if inSet m i then { s.lane i with queue := (s.lane i).queue ++ [n] } else s.lane i }

theorem atTails_lane (s : State) (m : BitVec 16) (n : SlotId) (i : LaneId) : (s.atTails m n).lane i =
    if inSet m i then { s.lane i with queue := (s.lane i).queue ++ [n] } else s.lane i := by
  unfold State.atTails State.lane
  rw [Vector.getElem_ofFn]

section Placement

variable {s : State} {n : SlotId} {j : Job}

/-- Joining the queues of some lanes changes the lanes alone. -/
theorem joinQueues_eq_withLanes (n : SlotId) (l : List LaneId) (s : State) :
    l.foldl (joinQueue n) s = { s with lanes := (l.foldl (joinQueue n) s).lanes } := by
  induction l generalizing s with
  | nil => rfl
  | cons i l ih =>
    rw [List.foldl_cons, ih]
    rfl

/-- One lane after the job has joined the queues of some lanes (R57). -/
theorem joinQueues_lane (n : SlotId) {l : List LaneId} (hn : l.Nodup) (s : State) (k : LaneId) :
    (l.foldl (joinQueue n) s).lane k =
      if k ∈ l then { s.lane k with queue := (s.lane k).queue ++ [n] } else s.lane k := by
  induction l generalizing s with
  | nil => rfl
  | cons i l ih =>
    obtain ⟨hi, hn⟩ := List.nodup_cons.mp hn
    rw [List.foldl_cons, ih hn, joinQueue, State.lane_modLane]
    by_cases hk : k = i
    · subst hk
      simp [hi]
    · simp [hk]

/-- The job joins the tail of the queue of every lane of its set (R57). -/
theorem joinQueues_eq_atTails (s : State) (m : BitVec 16) (n : SlotId) :
    (lanesOf m).foldl (joinQueue n) s = s.atTails m n := by
  rw [joinQueues_eq_withLanes]
  refine congrArg (fun v => { s with lanes := v }) (Vector.ext fun k hk => ?_)
  refine (joinQueues_lane n (nodup_lanesOf m) s ⟨k, hk⟩).trans ?_
  simp only [mem_lanesOf, Vector.getElem_ofFn]

/-- A lane job whose lanes all have jobs before it is QUEUED, and no lane takes it up (R57, R132). -/
theorem placeLaneJob_queued (h : ∀ i : LaneId, inSet j.spec.lanes i = true → (s.lane i).queue ≠ []) :
    placeLaneJob s n j = (s.setSlot n (some { j with state := .queued, listRead := false })).atTails j.spec.lanes n := by
  have hheads : (lanesOf j.spec.lanes).filter (fun i => (s.lane i).queue.isEmpty) = [] :=
    List.filter_eq_nil_iff.mpr fun i hi => by simpa using h i ((mem_lanesOf _ i).mp hi)
  unfold placeLaneJob
  dsimp only
  rw [hheads, joinQueues_eq_atTails]
  rfl

/-- A job of a kind that names lanes is placed as a lane job (R132). -/
theorem place_laneJob (hs : s.slot n = some j) (hl : j.spec.params.kind.hasLanes = true) :
    place s n = placeLaneJob (s.leaveIntake j.ring) n j := by
  unfold place
  rw [hs]
  dsimp only
  split
  case h_1 hk => rw [hk] at hl; cases hl
  case h_9 hk => rw [hk] at hl; cases hl
  case h_10 hk => rw [hk] at hl; cases hl
  case h_11 hk => rw [hk] at hl; cases hl
  all_goals rfl

/-- A BARRIER is placed as one (R132). -/
theorem place_barrier (hs : s.slot n = some j) (hp : j.spec.params = .barrier) :
    place s n = placeBarrier (s.leaveIntake j.ring) n j := by
  unfold place
  rw [hs]
  dsimp only
  rw [hp]
  rfl

/-- A BARRIER's wait set is the other jobs of its ring that hold slots (R74). -/
theorem mem_ringSlots (s : State) (r : RingId) (n m : SlotId) :
    m ∈ ringSlots s r n ↔ m ≠ n ∧ ∃ k : Job, s.slot m = some k ∧ k.ring = r := by
  unfold ringSlots
  rw [List.mem_filter, and_iff_right (mem_allSlots m)]
  cases s.slot m with
  | none => simp
  | some k => simp

/-- A BARRIER with jobs to wait for is WAITING, and its ring's barrier is pending (R74). -/
theorem placeBarrier_waits (h : ringSlots s j.ring n ≠ []) : placeBarrier s n j =
    (s.setSlot n (some { j with state := .waiting, waitSet := ringSlots s j.ring n })).modRing j.ring
      (fun r => { r with barrierPending := true }) :=
  if_neg (by simpa using h)

/-- A BARRIER with none to wait for retires at once with SUCCESS, and is offered (R74). -/
theorem placeBarrier_retires (hs : s.slot n = some j) (h : ringSlots s j.ring n = []) : placeBarrier s n j =
    offerJob ((s.setSlot n (some j.retiredBarrier)).modRing j.ring (fun r => { r with barrierPending := false })) n := by
  refine (if_pos (by simp [h])).trans ?_
  unfold retireBarrier
  rw [hs]
  rfl

end Placement

/-! ### The record of a slot kind -/

section Placed

variable (s : State) (r : RingId) (j : JobSpec) (n : SlotId)

/-- The state in which a record without a list is placed: it is in its slot, and its ring is not in intake (R130, R132). -/
def State.placing : State := (s.withClaim r j n).leaveIntake r

theorem placing_slot_self : (s.placing r j n).slot n = some (newJob r j) := withClaim_slot_self

theorem placing_slot_ne {m : SlotId} (h : m ≠ n) : (s.placing r j n).slot m = s.slot m := withClaim_slot_ne h

theorem placing_ring_self : (s.placing r j n).ring r = { s.ring r with
    consumer := ((s.ring r).consumer + 1) % (s.ring r).size, held := none, blocked := .none, inIntake := false } := by
  unfold State.placing State.leaveIntake
  rw [State.ring_modRing_self, withClaim_ring_self]

theorem placing_ring_ne {q : RingId} (h : q ≠ r) : (s.placing r j n).ring q = s.ring q := by
  unfold State.placing State.leaveIntake
  rw [State.ring_modRing_ne _ h, withClaim_ring_ne h]

/-- The state in which a BARRIER has been placed: it stands in its slot as `k`, and its ring's barrier pending is `b`
(R74). -/
def State.barrierPlaced (k : Job) (b : Bool) : State :=
  ((s.placing r j n).setSlot n (some k)).modRing r (fun g => { g with barrierPending := b })

variable (k : Job) (b : Bool)

theorem barrierPlaced_slot_self : (s.barrierPlaced r j n k b).slot n = some k := State.slot_setSlot_self _ n _

theorem barrierPlaced_slot_ne {m : SlotId} (h : m ≠ n) : (s.barrierPlaced r j n k b).slot m = s.slot m :=
  (State.slot_setSlot_ne _ h _).trans (placing_slot_ne s r j n h)

theorem barrierPlaced_ring_self : (s.barrierPlaced r j n k b).ring r = { s.ring r with
    consumer := ((s.ring r).consumer + 1) % (s.ring r).size, held := none, blocked := .none, inIntake := false
    barrierPending := b } := by
  unfold State.barrierPlaced
  rw [State.ring_modRing_self, State.setSlot_ring, placing_ring_self]

theorem barrierPlaced_ring_ne {q : RingId} (h : q ≠ r) : (s.barrierPlaced r j n k b).ring q = s.ring q := by
  unfold State.barrierPlaced
  rw [State.ring_modRing_ne _ h, State.setSlot_ring, placing_ring_ne s r j n h]

/-- The other jobs of the ring of a BARRIER that has just been put into its slot (R74). -/
theorem mem_ringSlots_placing {s : State} {n : SlotId} (hfree : s.slot n = none) (m : SlotId) :
    m ∈ ringSlots (s.placing r j n) r n ↔ ∃ k : Job, s.slot m = some k ∧ k.ring = r := by
  rw [mem_ringSlots]
  by_cases hm : m = n
  · subst hm
    simp [hfree]
  · rw [placing_slot_ne s r j n hm]
    exact and_iff_right hm

end Placed

section PlacedAs

variable {s : State} {r : RingId} {j : JobSpec} {n : SlotId}

/-- A BARRIER that is claimed while other jobs of its ring hold slots waits for them (R74, R132). -/
theorem place_barrier_waits (hp : j.params = .barrier) (hfree : s.slot n = none)
    (h : ∃ (m : SlotId) (k : Job), s.slot m = some k ∧ k.ring = r) :
    place (s.withClaim r j n) n = s.barrierPlaced r j n
      { newJob r j with state := .waiting, waitSet := ringSlots (s.placing r j n) r n } true := by
  obtain ⟨m, hm⟩ := h
  have hwait : ringSlots (s.placing r j n) r n ≠ [] :=
    List.ne_nil_of_mem ((mem_ringSlots_placing r j hfree m).mpr hm)
  exact (place_barrier withClaim_slot_self hp).trans (placeBarrier_waits (s := s.placing r j n) hwait)

/-- A BARRIER that is claimed while no other job of its ring holds a slot retires at once (R74, R132). -/
theorem place_barrier_retires (hp : j.params = .barrier) (hfree : s.slot n = none)
    (h : ¬ ∃ (m : SlotId) (k : Job), s.slot m = some k ∧ k.ring = r) :
    place (s.withClaim r j n) n = offerJob (s.barrierPlaced r j n (newJob r j).retiredBarrier false) n := by
  have hwait : ringSlots (s.placing r j n) r n = [] :=
    List.eq_nil_iff_forall_not_mem.mpr fun m hm => h ⟨m, (mem_ringSlots_placing r j hfree m).mp hm⟩
  exact (place_barrier withClaim_slot_self hp).trans
    (placeBarrier_retires (s := s.placing r j n) (placing_slot_self s r j n) hwait)

/-- A lane job that is claimed while all its lanes have jobs before it is QUEUED (R57, R132). -/
theorem place_claimed_queued (hlanes : j.params.kind.hasLanes = true)
    (h : ∀ i : LaneId, inSet j.lanes i = true → (s.lane i).queue ≠ []) : place (s.withClaim r j n) n =
      ((s.placing r j n).setSlot n (some { newJob r j with state := .queued, listRead := false })).atTails j.lanes n :=
  (place_laneJob withClaim_slot_self hlanes).trans (placeLaneJob_queued (s := s.placing r j n) h)

end PlacedAs

/-- Two states with the same Intake Unit show the same ring `q`. -/
theorem State.ring_congr {s t : State} (h : s.intake = t.intake) (q : RingId) : s.ring q = t.ring q := by
  rw [State.ring, h, State.ring]

/-- Settles O15: what the examination finds, and for a claim what the job's kind calls for. -/
theorem recordsAreClaimedOrHeld : Obligations.RecordsAreClaimedOrHeld := by
  intro s r bytes j htaken habort hload hclear ring
  rw [htaken.exec_examine habort hload hclear]
  refine ⟨fun h => ?_, fun h hfull => ?_, fun n hn hroom => ⟨fun hlist => ?_, fun hp => ?_, ?_⟩⟩
  · rw [examine_noSlot h]
    rfl
  · rw [examine_noRoom h hfull]
    rfl
  · rw [examine_claim hn hroom, claim_list (j.hasList_iff.mpr hlist)]
    refine ⟨rfl, ?_⟩
    rintro t rfl
    exact ⟨_, withClaim_slot_self, rfl, rfl, rfl, j.hasList_iff.mpr hlist⟩
  · have hlist : j.hasList = false := by simp [JobSpec.hasList, hp, Params.kind]
    rw [examine_claim hn hroom, claim_noList hlist]
    refine ⟨_, rfl, ?_⟩
    by_cases hjobs : ∃ (m : SlotId) (k : Job), s.slot m = some k ∧ k.ring = r
    · rw [place_barrier_waits hp hn.1 hjobs]
      refine ⟨fun m hm => barrierPlaced_slot_ne s r j n _ _ hm, fun q hq => barrierPlaced_ring_ne s r j n _ _ hq,
        rfl, rfl, rfl, rfl, rfl, rfl, rfl, fun _ => ⟨rfl, ?_, _, ?_, mem_ringSlots_placing r j hn.1⟩,
        fun h => absurd hjobs h⟩
      · exact barrierPlaced_ring_self s r j n _ _
      · exact barrierPlaced_slot_self s r j n _ _
    · rw [place_barrier_retires hp hn.1 hjobs]
      obtain ⟨hctl, hintake, hslots, hlanes, hpool, hcreds, hsupply, -⟩ :=
        offerJob_frame (s.barrierPlaced r j n (newJob r j).retiredBarrier false) n
      refine ⟨fun m hm => ?_, fun q hq => ?_, by rw [hintake]; rfl, by rw [hintake]; rfl, hctl, hlanes, hpool, hcreds,
        hsupply, fun h => absurd h hjobs, fun _ => ⟨?_, ?_, fun hopen => ?_⟩⟩
      · exact (State.slot_congr hslots m).trans (barrierPlaced_slot_ne s r j n _ _ hm)
      · exact (State.ring_congr hintake q).trans (barrierPlaced_ring_ne s r j n _ _ hq)
      · exact (State.ring_congr hintake r).trans (barrierPlaced_ring_self s r j n _ _)
      · exact (State.slot_congr hslots n).trans (barrierPlaced_slot_self s r j n _ _)
      · rw [offerJob_of_open (s := s.barrierPlaced r j n (newJob r j).retiredBarrier false) hopen]
        rfl
  · intro hlanes hprogram hverify herase hqueues
    have hlist : j.hasList = false := by
      refine Bool.eq_false_iff.mpr fun h => ?_
      rcases j.hasList_iff.mp h with hp | hp | ⟨hp, hcount⟩
      · exact hprogram hp
      · exact hverify hp
      · exact absurd (herase hp) hcount.ne'
    rw [examine_claim hn hroom, claim_noList hlist, place_claimed_queued hlanes hqueues]
    refine ⟨_, rfl, ?_, fun m hm => ?_, ?_, fun q hq => ?_, rfl, fun i => ?_, rfl, rfl, rfl, rfl, rfl⟩
    · have hjob : newJob r j = { newJob r j with listRead := false } := by rw [← hlist]; rfl
      rw [hjob]
      exact State.slot_setSlot_self _ n _
    · exact (State.slot_setSlot_ne _ hm _).trans (placing_slot_ne s r j n hm)
    · exact placing_ring_self s r j n
    · exact placing_ring_ne s r j n hq
    · exact atTails_lane _ j.lanes n i

end Sys2Proof.Machine
end

section
/-! CERTIFICATES. The intake arbiter: the ring that it chooses, and the held entry that is examined again (R125, R126,
R130). -/

namespace Sys2Proof.Machine

/-! ### The choice -/

/-- The four conditions under which a ring is eligible (R125). -/
theorem Ring.eligible_iff (g : Ring) : g.eligible = true ↔
    g.pendingEntries ≠ 0 ∧ g.blocked = .none ∧ g.barrierPending = false ∧ g.inIntake = false := by
  simp [Ring.eligible, and_assoc]

/-- The arbiter looks at the four rings upward from the one after the last chosen (R125). -/
theorem getElem_ringsAfter (last : RingId) {m : Nat} (h : m < (ringsAfter last).length) :
    (ringsAfter last)[m] = last + 1 + Fin.ofNat 4 m := by
  simp [ringsAfter]

section Choice

variable {s : State}

/-- The first eligible ring upward from the one after the pointer is the next one (R125). -/
theorem nextRing_eq_some {k : Fin 4} (hk : (s.ring (s.intake.arbiter + 1 + k)).eligible = true)
    (hbefore : ∀ m : Fin 4, m < k → ¬ (s.ring (s.intake.arbiter + 1 + m)).eligible = true) :
    nextRing s = some (s.intake.arbiter + 1 + k) := by
  have hlength : (ringsAfter s.intake.arbiter).length = 4 := by simp [ringsAfter]
  unfold nextRing
  rw [List.find?_eq_some_iff_getElem]
  refine ⟨hk, k.val, k.isLt.trans_eq hlength.symm, by simp [getElem_ringsAfter], fun m hm => ?_⟩
  have hm4 : m < 4 := hm.trans k.isLt
  have hfin : Fin.ofNat 4 m = ⟨m, hm4⟩ := Fin.ext (Nat.mod_eq_of_lt hm4)
  rw [getElem_ringsAfter, hfin, Bool.not_eq_true']
  exact Bool.eq_false_iff.mpr (hbefore ⟨m, hm4⟩ hm)

/-- With no ring eligible there is none to choose (R125). -/
theorem nextRing_eq_none (h : ∀ r : RingId, ¬ (s.ring r).eligible = true) : nextRing s = none :=
  List.find?_eq_none.mpr fun r _ => h r

theorem exec_intakeArbiterChoice_chosen {r : RingId} (hd : s.ctl.device = .running) (he : s.intake.engine = .free)
    (hr : nextRing s = some r) : exec .intakeArbiterChoice s = .next (chooseRing s r) := by
  simp [exec, execIntakeArbiterChoice, hd, he, hr]

/-- Outside RUNNING, with the engine not free or with no ring eligible, nothing is chosen (R125). -/
theorem exec_intakeArbiterChoice_nothing (h : s.ctl.device ≠ .running ∨ s.intake.engine ≠ .free ∨ nextRing s = none) :
    exec .intakeArbiterChoice s = .next s := by
  simp only [exec, execIntakeArbiterChoice]
  split
  · next hrun =>
    simp only [Bool.and_eq_true, decide_eq_true_eq, beq_iff_eq] at hrun
    rcases h with h | h | h
    · exact absurd hrun.1 h
    · exact absurd hrun.2 h
    · rw [h]
  · rfl

end Choice

/-! ### The chosen ring -/

/-- Ring `r` is in intake with `held` as its held entry, the pointer holds it, and the engine holds `e` (R125). -/
def State.chosen (s : State) (r : RingId) (held : Option JobSpec) (e : Engine) : State :=
  { s with intake :=
    { rings := s.intake.rings.set r.val { s.ring r with held := held, inIntake := true }, arbiter := r, engine := e } }

section Chosen

variable {s : State} {r : RingId} {j : JobSpec}

/-- A ring without a held entry has the record of its entry at the consumer index read (R126). -/
theorem chooseRing_read (h : (s.ring r).held = none) : chooseRing s r = s.chosen r (s.ring r).held
    (.recordRead r ((s.ring r).base + BitVec.ofNat 64 (64 * (s.ring r).consumer))) := by
  unfold chooseRing
  dsimp only
  split
  · next hj => rw [h] at hj; cases hj
  · rfl

/-- A ring with a held entry has it examined again (R130). -/
theorem chooseRing_held (h : (s.ring r).held = some j) :
    chooseRing s r = examine (s.chosen r (s.ring r).held s.intake.engine) r j := by
  unfold chooseRing
  dsimp only
  split
  · next k hk =>
    obtain rfl : j = k := Option.some.inj (h.symm.trans hk)
    rfl
  · next hnone => rw [h] at hnone; cases hnone

variable (s r j) (held : Option JobSpec) (e : Engine)

theorem chosen_ring : (s.chosen r held e).ring r = { s.ring r with held := held, inIntake := true } := by
  simp [State.chosen, State.ring]

/-- The record becomes the held entry, whatever the ring and the engine have held before (R130). -/
theorem holdEntry_chosen (cause : Blocked) : holdEntry (s.chosen r held e) r j cause = { s with intake :=
    { rings := s.intake.rings.set r.val { s.ring r with held := some j, blocked := cause, inIntake := false }
      arbiter := r
      engine := .free } } := by
  unfold holdEntry State.modRing State.setEngine
  rw [chosen_ring]
  simp [State.chosen]

/-- The entry held before is held again, with the cause that it has now (R130). -/
theorem holdEntry_chosen_again (hheld : (s.ring r).held = some j) (hintake : (s.ring r).inIntake = false)
    (he : s.intake.engine = .free) (cause : Blocked) :
    holdEntry (s.chosen r (s.ring r).held s.intake.engine) r j cause = { s with intake :=
      { s.intake with rings := s.intake.rings.set r.val { s.ring r with blocked := cause }, arbiter := r } } := by
  rw [holdEntry_chosen, ← hheld, ← hintake, ← he]

/-- The claim leaves nothing held, whatever the ring and the engine have held before (R130). -/
theorem withClaim_chosen (n : SlotId) : (s.chosen r held e).withClaim r j n = { s with
    slots := s.slots.set n.val (some (newJob r j))
    intake :=
      { rings := s.intake.rings.set r.val
          { s.ring r with
            consumer := ((s.ring r).consumer + 1) % (s.ring r).size, held := none, blocked := .none, inIntake := true }
        arbiter := r
        engine := .free } } := by
  unfold State.withClaim
  rw [chosen_ring]
  simp [State.chosen]

/-- The claim and what follows it depend on the ring's held entry and on the engine no more than the claim itself. -/
theorem claim_eq_of_withClaim_eq {s t : State} {r : RingId} {j : JobSpec} {n : SlotId}
    (h : s.withClaim r j n = t.withClaim r j n) : claim s r j n = claim t r j n := by
  cases hlist : j.hasList with
  | true => rw [claim_list hlist, claim_list hlist, h]
  | false => rw [claim_noList hlist, claim_noList hlist, h]

/-- The examination of a held entry has the effect that it has on a record just read (R130). -/
theorem examine_chosen (held' : Option JobSpec) (e' : Engine) :
    examine (s.chosen r held e) r j = examine (s.chosen r held' e') r j := by
  have hslot : freeSlotNumber (s.chosen r held e) = freeSlotNumber (s.chosen r held' e') := rfl
  have hroom : hasRoom (s.chosen r held e) = hasRoom (s.chosen r held' e') := rfl
  have hhold : ∀ cause, holdEntry (s.chosen r held e) r j cause = holdEntry (s.chosen r held' e') r j cause :=
    fun cause => by rw [holdEntry_chosen, holdEntry_chosen]
  have hclaim : ∀ n, claim (s.chosen r held e) r j n = claim (s.chosen r held' e') r j n :=
    fun n => claim_eq_of_withClaim_eq (by rw [withClaim_chosen, withClaim_chosen])
  unfold examine
  simp only [hslot, hroom, hhold, hclaim]

end Chosen

/-- Settles O12: the first eligible ring is chosen; with no entry held its record is read, and a held entry is examined. -/
theorem arbiterChoosesOrExaminesAgain : Obligations.ArbiterChoosesOrExaminesAgain := by
  intro s ok chosen
  have hok : ∀ r, ok r ↔ (s.ring r).eligible = true := fun r => (s.ring r).eligible_iff.symm
  have hexec : ∀ k, chosen k → exec .intakeArbiterChoice s = .next (chooseRing s (s.intake.arbiter + 1 + k)) := by
    rintro k ⟨hd, he, hk, hbefore⟩
    refine exec_intakeArbiterChoice_chosen hd he (nextRing_eq_some ((hok _).mp hk) fun m hm => ?_)
    exact mt (hok _).mpr (hbefore m hm)
  refine ⟨fun k hk hheld => ?_, fun k j hk hheld => ?_, fun h => ?_⟩
  · rw [hexec k hk, chooseRing_read hheld]
    rfl
  · intro r
    obtain ⟨-, he, ⟨-, hblocked, -, hintake⟩, -⟩ := id hk
    let w : State := s.chosen r (s.ring r).held s.intake.engine
    rw [hexec k hk, chooseRing_held hheld]
    refine ⟨fun h => congrArg _ ?_, fun h hfull => congrArg _ ?_, fun n hn hroom hlist => congrArg _ ?_, fun bytes a => ?_⟩
    · exact (examine_noSlot (s := w) h).trans (holdEntry_chosen_again s r j hheld hintake he .slot)
    · exact (examine_noRoom (s := w) h hfull).trans (holdEntry_chosen_again s r j hheld hintake he .laneQueue)
    · refine ((examine_claim (s := w) hn hroom).trans (claim_list (j.hasList_iff.mpr hlist))).trans ?_
      rw [withClaim_chosen, ← he, ← hblocked]
    · intro u htaken habort hload hclear
      rw [htaken.exec_examine habort hload hclear]
      exact congrArg _ (examine_chosen s r j _ _ none (.recordRead r a))
  · refine exec_intakeArbiterChoice_nothing (h.imp_right (Or.imp_right fun hnone => ?_))
    exact nextRing_eq_none fun r hr => hnone r ((hok r).mpr hr)

end Sys2Proof.Machine
end

section
/-! CERTIFICATES. The end of a list read: the abort mark, a failed read or a bad list, and a good list (R131, R132, R134,
R138, R147). -/

namespace Sys2Proof.Machine

/-- A candidate joins the back of the wait list where it is not on it (R138). -/
theorem joinWait_eq (s : State) (c : Candidate) : s.joinWait c = { s with writer :=
    { s.writer with waitList := s.writer.waitList ++ if c ∈ s.writer.waitList then [] else [c] } } := by
  unfold State.joinWait
  by_cases hin : c ∈ s.writer.waitList
  · rw [if_pos (List.contains_iff_mem.mpr hin), if_pos hin, List.append_nil]
  · rw [if_neg (mt List.contains_iff_mem.mp hin), if_neg hin]

/-! ### What the end of the read calls for -/

section ListRead

variable {s : State} {n : SlotId} {j : Job} {bytes : List Byte}

/-- In FAULT, or with no list read of the slot in flight, the end is discarded (R134). -/
theorem exec_listReadEnd_discarded (hs : s.slot n = some j)
    (h : s.ctl.device = .fault ∨ j.state ≠ .intake ∨ j.listRead = false) (r : HostRead) :
    exec (.listReadEnd .live n r) s = .next s := by
  have hstop : (decide (s.ctl.device = .fault) || j.state != .intake || !j.listRead) = true := by
    simpa [or_assoc] using h
  simp only [exec, execListReadEnd, hs]
  exact if_pos hstop

/-- The read ends good with the job's list, or fails: it brings the completion that the job is to post (R131). -/
def Job.listRefused (j : Job) (bytes : List Byte) (r : HostRead) (st : Status) (d : Detail) : Prop :=
  (r = .failed ∧ st = .hostError ∧ d = .none) ∨
    (r = .good bytes ∧ st = .invalid ∧
      listFault (j.spec.params.kind == .verify) 0 (parseList j.spec.listCount bytes) = some d)

section Live

variable (hs : s.slot n = some j) (hl : bytes.length = 24 * j.spec.listCount) (hd : s.ctl.device ≠ .fault)
  (hi : j.state = .intake) (hr : j.listRead = true)
include hs hl hd hi hr

/-- The abort mark decides first (R131, R147). -/
theorem exec_listReadEnd_aborted (ha : j.abortMark = true) {r : HostRead} (h : r = .failed ∨ r = .good bytes) :
    exec (.listReadEnd .live n r) s = .next (retireAborted s n j) := by
  rcases h with rfl | rfl
  · simp [exec, execListReadEnd, hs, hd, hi, hr, ha]
  · simp [exec, execListReadEnd, hs, hd, hi, hr, ha, hl, listEntryBytes]

/-- A failed read, or a list that fails a check, completes the job from INTAKE (R131). -/
theorem exec_listReadEnd_refused (ha : j.abortMark = false) {r : HostRead} {st : Status} {d : Detail}
    (h : j.listRefused bytes r st d) : exec (.listReadEnd .live n r) s = .next (completeFromIntake s n j st d) := by
  rcases h with ⟨rfl, rfl, rfl⟩ | ⟨rfl, rfl, hfault⟩
  · simp [exec, execListReadEnd, hs, hd, hi, hr, ha]
  · simp [exec, execListReadEnd, hs, hd, hi, hr, ha, hl, listEntryBytes, hfault]

/-- A good list is kept, and its job is placed (R132). -/
theorem exec_listReadEnd_placed (ha : j.abortMark = false)
    (hgood : listFault (j.spec.params.kind == .verify) 0 (parseList j.spec.listCount bytes) = none) :
    exec (.listReadEnd .live n (.good bytes)) s = .next
      (place (s.setSlot n (some { j with list := parseList j.spec.listCount bytes, listRead := false })) n) := by
  simp [exec, execListReadEnd, hs, hd, hi, hr, ha, hl, listEntryBytes, hgood]

end Live

/-! ### The job aborted in INTAKE -/

/-- A job that retires from INTAKE: its slot, and its ring no longer in intake; the lanes and the rest are left (R147). -/
theorem retireAborted_leaves (s : State) (n : SlotId) (j : Job) :
    (retireAborted s n j).slot n = some { j with
      state := .retiring, listRead := false, final := some { status := .aborted, okMask := 0, failMask := 0 } } ∧
    (∀ m : SlotId, m ≠ n → (retireAborted s n j).slot m = s.slot m) ∧
    ((retireAborted s n j).ring j.ring).inIntake = false ∧
    (retireAborted s n j).lanes = s.lanes ∧ (retireAborted s n j).ctl = s.ctl ∧ (retireAborted s n j).pool = s.pool ∧
    (retireAborted s n j).creds = s.creds ∧ (retireAborted s n j).supply = s.supply := by
  unfold retireAborted
  dsimp only
  generalize hu : (s.setSlot n _).modRing j.ring _ = u
  obtain ⟨hctl, hintake, hslots, hlanes, hpool, hcreds, hsupply, -⟩ := offerIfClear_frame (u.unblockLanes j.spec.lanes) n
  obtain ⟨hrings, uslots, -, -, -, ulanes, uctl, upool, ucreds, usupply⟩ := unblockLanes_spec j.spec.lanes u
  have hslot := State.slot_congr (hslots.trans uslots)
  refine ⟨?_, fun m hm => ?_, ?_, ?_, ?_, ?_, ?_, ?_⟩
  · rw [hslot, ← hu]
    exact State.slot_setSlot_self s n _
  · rw [hslot, ← hu]
    exact State.slot_setSlot_ne s hm _
  · rw [State.ring_congr hintake, (hrings j.ring).1, ← hu, State.ring_modRing_self]
  · rw [hlanes, ulanes, ← hu]
    rfl
  · rw [hctl, uctl, ← hu]
    rfl
  · rw [hpool, upool, ← hu]
    rfl
  · rw [hcreds, ucreds, ← hu]
    rfl
  · rw [hsupply, usupply, ← hu]
    rfl

/-! ### The job completed from INTAKE -/

/-- The job of slot `n` waits in INTAKE to post this completion (R131). -/
def State.withIntakeEnd (s : State) (n : SlotId) (j : Job) (st : Status) (d : Detail) : State :=
  s.setSlot n (some { j with listRead := false, intakeEnd := some (st, d) })

variable (n j) (st : Status) (d : Detail)

/-- The record of a job that waits in INTAKE to post its completion (R131, R138). -/
theorem withIntakeEnd_recordFor : (s.withIntakeEnd n j st d).recordFor (.intakeJob n) = some (.intake
    { ring := j.ring, tag := j.spec.tag, status := st, detail := d, irqNow := j.spec.flags.getLsbD 0 }) := by
  have hslot : (s.withIntakeEnd n j st d).slot n = some { j with listRead := false, intakeEnd := some (st, d) } :=
    State.slot_setSlot_self s n _
  simp [State.recordFor, hslot]

/-- With the holding queue open the completion enters it, and the slot is FREE (R131, R138). -/
theorem completeFromIntake_open (h : s.holdingOpen) :
    completeFromIntake s n j st d = enterHolding (s.withIntakeEnd n j st d) (.intakeJob n) :=
  if_pos ((canEnter_iff (s.withIntakeEnd n j st d)).mpr h)

/-- With the holding queue full or others waiting the job joins the wait list, once (R131, R138). -/
theorem completeFromIntake_waits (h : ¬ s.holdingOpen) : completeFromIntake s n j st d = { s with
    slots := s.slots.set n.val (some { j with listRead := false, intakeEnd := some (st, d) })
    writer :=
      { s.writer with waitList :=
        s.writer.waitList ++ if .intakeJob n ∈ s.writer.waitList then [] else [.intakeJob n] } } := by
  have hjoin : completeFromIntake s n j st d = (s.withIntakeEnd n j st d).joinWait (.intakeJob n) :=
    if_neg (mt (canEnter_iff (s.withIntakeEnd n j st d)).mp h)
  exact hjoin.trans (joinWait_eq _ _)

/-- A job completed from INTAKE at once: its slot is FREE, its completion is held, its ring is no longer in intake, and
the lanes and the rest are left (R131, R133). -/
theorem completeFromIntake_leaves (h : s.holdingOpen) : ∃ more : List HeldRecord,
    (completeFromIntake s n j st d).slot n = none ∧
    (completeFromIntake s n j st d).writer.holding = s.writer.holding ++ .intake
      { ring := j.ring, tag := j.spec.tag, status := st, detail := d, irqNow := j.spec.flags.getLsbD 0 } :: more ∧
    ((completeFromIntake s n j st d).ring j.ring).inIntake = false ∧
    (completeFromIntake s n j st d).lanes = s.lanes ∧ (completeFromIntake s n j st d).ctl = s.ctl ∧
    (completeFromIntake s n j st d).pool = s.pool ∧ (completeFromIntake s n j st d).creds = s.creds ∧
    (completeFromIntake s n j st d).supply = s.supply := by
  rw [completeFromIntake_open n j st d h]
  have hrecord := withIntakeEnd_recordFor (s := s) n j st d
  obtain ⟨hfrees, henters, -, hctl, hpool, hcreds, hsupply⟩ := enterHolding_enters _ _ _ hrecord
  obtain ⟨entered, -, hholding, -⟩ := hfrees.offered
  refine ⟨entered.map .job, hfrees.free n (beq_self_eq_true _), ?_, ?_, ?_, hctl, hpool, hcreds, hsupply⟩
  · rw [hholding, List.append_assoc]
    rfl
  · refine Bool.eq_false_iff.mpr fun hin => ?_
    exact ((henters.inIntake j.ring).mp hin).2 ⟨_, hrecord, rfl⟩
  · refine Vector.ext fun i hi => (henters.lanes ⟨i, hi⟩).trans ?_
    exact if_neg nofun

end ListRead

/-! ### The job placed -/

/-- A lane job in INTAKE whose lanes all have jobs before it is QUEUED behind them (R57, R132). -/
theorem place_setSlot_queued {s : State} {n : SlotId} {k : Job} (hl : k.spec.params.kind.hasLanes = true)
    (h : ∀ i : LaneId, inSet k.spec.lanes i = true → (s.lane i).queue ≠ []) : place (s.setSlot n (some k)) n =
      (((s.setSlot n (some k)).leaveIntake k.ring).setSlot n
        (some { k with state := .queued, listRead := false })).atTails k.spec.lanes n :=
  (place_laneJob (State.slot_setSlot_self s n _) hl).trans
    (placeLaneJob_queued (s := (s.setSlot n (some k)).leaveIntake k.ring) h)

/-- Settles O19: the end discarded, the job aborted, refused with the holding queue open or not, and placed. -/
theorem listReadEndPlacesOrCompletes : Obligations.ListReadEndPlacesOrCompletes := by
  intro s n j bytes hs hl
  refine ⟨fun h => ⟨exec_listReadEnd_discarded hs h _, exec_listReadEnd_discarded hs h _⟩, fun hd hi hr => ⟨?_, ?_, ?_, ?_⟩⟩
  · intro ha r h
    exact ⟨_, exec_listReadEnd_aborted hs hl hd hi hr ha h, retireAborted_leaves s n j⟩
  · intro ha hopen r st d h
    obtain ⟨more, hleaves⟩ := completeFromIntake_leaves n j st d hopen
    exact ⟨_, more, exec_listReadEnd_refused hs hl hd hi hr ha h, hleaves⟩
  · intro ha hfull r st d h
    rw [exec_listReadEnd_refused hs hl hd hi hr ha h, completeFromIntake_waits n j st d hfull]
  · intro ha hgood hkind hqueues
    have hlanes : j.spec.params.kind.hasLanes = true := by
      rcases hkind with hp | hp | hp
      · rw [hp]; rfl
      · rw [hp]; rfl
      · rw [hp]; rfl
    let k : Job := { j with list := parseList j.spec.listCount bytes, listRead := false }
    rw [exec_listReadEnd_placed hs hl hd hi hr ha hgood, place_setSlot_queued (k := k) hlanes hqueues]
    refine ⟨_, rfl, ?_, fun m hm => ?_, fun i => ?_, ?_, rfl, rfl, rfl, rfl, rfl⟩
    · exact State.slot_setSlot_self _ n _
    · exact (State.slot_setSlot_ne _ hm _).trans (State.slot_setSlot_ne s hm _)
    · exact atTails_lane _ j.spec.lanes n i
    · exact State.ring_modRing_self s j.ring fun g => { g with inIntake := false }

end Sys2Proof.Machine
end

section
/-! CERTIFICATES. Records that enter the holding queue from the wait list, records without a slot that leave it, and the
coalescing delay (R49, R131, R133, R135, R138, R140, R142, R143). -/

namespace Sys2Proof.Machine

/-! ### The front of the wait list -/

/-- The state in which the front candidate has left the wait list (R138). -/
def State.waitingBehind (s : State) (rest : List Candidate) : State :=
  { s with writer := { s.writer with waitList := rest } }

section Front

variable {s : State} {rest : List Candidate}

theorem exec_holdingQueueEntry (s : State) : exec .holdingQueueEntry s = .next (promote s) := rfl

/-- With nothing waiting, no place free, or in FAULT, no candidate enters (R138). -/
theorem promote_nothing (h : s.writer.waitList = [] ∨ 8 ≤ s.writer.holding.length ∨ s.ctl.device = .fault) :
    promote s = s := by
  unfold promote
  split
  · rfl
  next c rest hw =>
  refine if_neg fun hroom => ?_
  rw [Bool.and_eq_true, bne_iff_ne, decide_eq_true_iff, Config.holdingRoom] at hroom
  rcases h with h | h | h
  · rw [h] at hw
    cases hw
  · exact absurd hroom.2 (Nat.not_lt.mpr h)
  · exact absurd h hroom.1

/-- Outside FAULT the front of the wait list takes a free place (R138). -/
theorem promote_front {c : Candidate} (hd : s.ctl.device ≠ .fault) (hl : s.writer.holding.length < 8)
    (hw : s.writer.waitList = c :: rest) : promote s = enterHolding (s.waitingBehind rest) c := by
  unfold promote
  rw [hw]
  refine if_pos ?_
  rw [Bool.and_eq_true, bne_iff_ne, decide_eq_true_iff, Config.holdingRoom]
  exact ⟨hd, hl⟩

/-- The completion in the intake engine's hand enters with its ring's consumer index (R133). -/
theorem enterHolding_engine {c : IntakeCompletion} (he : s.intake.engine = .waiting c) :
    enterHolding s .engine = s.withCompletion c := by
  unfold enterHolding
  dsimp only
  rw [he]
  rfl

/-- A lane's pending event enters and is absent from then on (R49). -/
theorem enterHolding_laneEvent {i : LaneId} {e : LaneEvent} (he : (s.lane i).pendingEvent = some e) :
    enterHolding s (.laneEvent i) = { s with
      lanes := s.lanes.set i.val { s.lane i with pendingEvent := none }
      writer := { s.writer with holding := s.writer.holding ++ [.event i e] } } := by
  unfold enterHolding
  dsimp only
  rw [he]
  rfl

/-- Of all slots, one meets the condition to be slot `n`. -/
theorem filter_allSlots_eq (n : SlotId) : allSlots.filter (fun m => m == n) = [n] := by
  have hcount : allSlots.count n = 1 := List.count_eq_one_of_mem (List.nodup_finRange 32) (mem_allSlots n)
  rw [List.filter_beq, hcount]
  rfl

/-- A job that completes from INTAKE enters, and its slot is FREE (R131). -/
theorem enterHolding_intakeJob {n : SlotId} {x : HeldRecord} (hx : s.recordFor (.intakeJob n) = some x) :
    let t := enterHolding (s.waitingBehind rest) (.intakeJob n)
    s.frees t (fun m => m == n) (s.writer.holding ++ [x]) rest ∧ s.entersFrom t (some (.intakeJob n)) [n] ∧
      t.ctl = s.ctl ∧ t.pool = s.pool ∧ t.creds = s.creds ∧ t.supply = s.supply ∧
      t.writer.ring = s.writer.ring ∧ t.writer.txn = s.writer.txn ∧ t.writer.count = s.writer.count ∧
      t.writer.delayTimer = s.writer.delayTimer := by
  intro t
  have hrecord : (s.waitingBehind rest).recordFor (.intakeJob n) = some x := by
    rw [recordFor_congr (s := s) (s' := s.waitingBehind rest) rfl rfl rfl]
    exact hx
  have hfreed : (fun m : SlotId => Candidate.intakeJob n == .intakeJob m) = fun m => m == n := by
    funext m
    rw [Bool.eq_iff_iff, beq_iff_eq, beq_iff_eq, Candidate.intakeJob.injEq]
    exact eq_comm
  obtain ⟨hfrees, henters, ⟨hring, htxn, hcount, htimer⟩, hctl, hpool, hcreds, hsupply⟩ :=
    enterHolding_enters _ _ _ hrecord
  rw [hfreed] at hfrees henters
  rw [filter_allSlots_eq] at henters
  refine ⟨?_, ?_, hctl, hpool, hcreds, hsupply, hring, htxn, hcount, htimer⟩
  · exact frees_congr (s' := s.waitingBehind rest) (t' := t) rfl rfl rfl rfl rfl rfl rfl hfrees
  · exact enters_congr (s' := s.waitingBehind rest) (t' := t) rfl rfl rfl rfl rfl henters

end Front

/-! ### The end of a record's write, and the coalescing delay -/

section Written

variable {s : State}

/-- A happening after which the CQ bit is set where it was, or where `signal` says so, and the rest of IRQ and the mask
are kept: its message (R143). -/
theorem withMessage_cq {t : State} {signal : Bool}
    (hirq : t.ctl.irq = { s.ctl.irq with cq := s.ctl.irq.cq || signal }) (hmask : t.mask = s.mask) :
    withMessage s t = { t with ctl := { t.ctl with
      messages := t.ctl.messages + if s.mask.cq && !s.ctl.irq.cq && signal then 1 else 0 } } := by
  have hnew : newlySet s.mask s.ctl.irq t.ctl.irq = (s.mask.cq && !s.ctl.irq.cq && signal) := by
    have h := newlySet_cq_halt s.mask s.ctl.irq signal false
    simp only [Bool.or_false, Bool.and_false] at h
    rw [hirq]
    exact h
  rw [withMessage_eq, hmask, hnew]

/-- The delay's expiry is a CQ signal (R142). -/
theorem exec_coalescingDelayExpiry_running (h : s.writer.delayTimer.isSome = true) :
    exec .coalescingDelayExpiry s = .next { s with
      ctl := { s.ctl with
        irq := { s.ctl.irq with cq := true }
        messages := s.ctl.messages + (if s.mask.cq && !s.ctl.irq.cq then 1 else 0) }
      writer := { s.writer with count := 0, delayTimer := none } } := by
  obtain ⟨us, hus⟩ := Option.isSome_iff_exists.mp h
  have hexec : exec .coalescingDelayExpiry s = .next (withMessage s (cqSignal s)) := by
    simp [exec, execCoalescingDelayExpiry, hus]
  have hirq : (cqSignal s).ctl.irq = { s.ctl.irq with cq := s.ctl.irq.cq || true } := by simp [cqSignal, State.raise]
  rw [hexec, withMessage_cq hirq rfl]
  simp [cqSignal, State.raise]

/-- A stopped delay does not expire. -/
theorem exec_coalescingDelayExpiry_stopped (h : s.writer.delayTimer = none) : exec .coalescingDelayExpiry s = .next s := by
  simp [exec, execCoalescingDelayExpiry, h]

variable {o : HostWriteOut} {h : HeldRecord} {rest : List HeldRecord} {k : Settings}

/-- The write of a record without a slot ends good, with none waiting and no drain: the record is gone, and the coalescing
state takes it (R135, R140, R142). -/
theorem exec_recordWriteEnd_noSlot (htxn : s.writer.txn = some (.completion o)) (hhold : s.writer.holding = h :: rest)
    (hwait : s.writer.waitList = []) (hslot : ∀ n : SlotId, h ≠ .job n) (hk : s.ctl.inForce = some k)
    (hd : s.ctl.device ≠ .quiescing) :
    let signal : Bool := decide (k.threshold ≤ s.writer.count + 1) || decide (k.delay = 0) || recordIrq s h
    exec (.completionRecordWriteEnd .live .good) s = .next { s with
      ctl := { s.ctl with
        irq := { s.ctl.irq with cq := s.ctl.irq.cq || signal }
        messages := s.ctl.messages + (if k.mask.cq && !s.ctl.irq.cq && signal then 1 else 0) }
      writer := { s.writer with
        ring := s.writer.ring.take, holding := rest, txn := none
        count := if signal then 0 else s.writer.count + 1
        delayTimer := if signal then none else if s.writer.count = 0 then some k.delay else s.writer.delayTimer } } := by
  intro signal
  have hfree : freeRecordSlot (s.recordGone rest) h = s.recordGone rest := by
    cases h with
    | job n => exact absurd rfl (hslot n)
    | intake c => rfl
    | event i e => rfl
  have hdone : completeRecord s h = coalesce (s.recordGone rest) (recordIrq s h) := by
    have hgone : promote (s.recordGone rest) = s.recordGone rest := promote_nothing (.inl hwait)
    have hstage : completeRecord s h = coalesce (freeRecordSlot (promote (s.recordGone rest)) h) (recordIrq s h) := by
      unfold completeRecord
      rw [hhold]
      rfl
    rw [hstage, hgone, hfree]
  have hcoalesce := coalesce_eq (s := s.recordGone rest) hk (recordIrq s h)
  rw [← hdone] at hcoalesce
  have hdrain : drainIfComplete (completeRecord s h) = completeRecord s h := by
    refine if_neg fun hq => hd ?_
    rw [hcoalesce] at hq
    simp only [Bool.and_eq_true, decide_eq_true_eq, and_assoc] at hq
    exact hq.1
  have hexec : exec (.completionRecordWriteEnd .live .good) s =
      .next (withMessage s (drainIfComplete (completeRecord s h))) := by
    simp [exec, execCompletionRecordWriteEnd, htxn, hhold]
  have hmask : s.mask = k.mask := by simp [State.mask, hk]
  rw [hexec, hdrain, withMessage_cq (signal := signal) (by rw [hcoalesce]; rfl) (by rw [hcoalesce]; rfl), hcoalesce, hmask]
  rfl

end Written

/-- Settles O26: the wait list's front by what it is, the record's write by whether it makes a signal, and the delay. -/
theorem recordsEnterAndLeaveTheHoldingQueue : Obligations.RecordsEnterAndLeaveTheHoldingQueue := by
  refine ⟨fun s => ⟨fun h => ?_, fun hd hl => ⟨?_, ?_, ?_, ?_⟩⟩, ?_,
    fun s => ⟨exec_coalescingDelayExpiry_running, exec_coalescingDelayExpiry_stopped⟩⟩
  · rw [exec_holdingQueueEntry, promote_nothing h]
  · intro n rest hw
    rw [exec_holdingQueueEntry, promote_front hd hl hw]
    rfl
  · intro c rest hw he
    rw [exec_holdingQueueEntry, promote_front hd hl hw, enterHolding_engine (s := s.waitingBehind rest) he]
    rfl
  · intro i e rest hw he
    rw [exec_holdingQueueEntry, promote_front hd hl hw, enterHolding_laneEvent (s := s.waitingBehind rest) he]
    rfl
  · intro n x rest hw hx
    rw [exec_holdingQueueEntry, promote_front hd hl hw]
    exact ⟨_, rfl, enterHolding_intakeJob hx⟩
  · intro s o h irqNow rest k htxn hhold hwait hrecord hk hd r signal ring
    have hslot : ∀ n : SlotId, h ≠ .job n := by
      rintro n rfl
      rcases hrecord with ⟨c, hc, -⟩ | ⟨i, e, he, -⟩
      · cases hc
      · cases he
    have hirq : recordIrq s h = irqNow := by
      rcases hrecord with ⟨c, rfl, rfl⟩ | ⟨i, e, rfl, rfl⟩
      · rfl
      · rfl
    have hsignal : (decide (k.threshold ≤ s.writer.count + 1) || decide (k.delay = 0) || irqNow) = true ↔ signal := by
      simp [signal, or_assoc]
    rw [exec_recordWriteEnd_noSlot htxn hhold hwait hslot hk hd, hirq, CompletionRing.take_eq]
    refine ⟨fun hs => ?_, fun hs => ?_⟩
    · simp only [hsignal.mpr hs, Bool.or_true, Bool.and_true, if_true]
      rfl
    · simp only [Bool.eq_false_iff.mpr (mt hsignal.mp hs), Bool.or_false, Bool.and_false, Bool.false_eq_true, if_false]
      rfl

end Sys2Proof.Machine
end

section
/-! CERTIFICATES. The completion ring: its positions from the host head to the tail, the entries that the host releases, and
the record that the PL16 writes (R135, R136; log 8). -/

namespace Sys2Proof.Machine

namespace CompletionRing

section Positions

variable {r : CompletionRing}

/-- The position `k` further on than the host head lies `k` forward of it. -/
theorem forward_position {k : Nat} (hhead : r.head < r.size) (hk : k < r.size) :
    ((r.head + k) % r.size + r.size - r.head) % r.size = k := by
  rcases Nat.lt_or_ge (r.head + k) r.size with hlt | hge
  · have hback : r.head + k + r.size - r.head = k + r.size := by omega
    rw [Nat.mod_eq_of_lt hlt, hback, Nat.add_mod_right, Nat.mod_eq_of_lt hk]
  · have hwrap : (r.head + k) % r.size = r.head + k - r.size := by
      rw [Nat.mod_eq_sub_mod hge, Nat.mod_eq_of_lt (by omega)]
    have hback : r.head + k - r.size + r.size - r.head = k := by omega
    rw [hwrap, hback, Nat.mod_eq_of_lt hk]

/-- A position of the ring is as much further on than the host head as it lies forward of it. -/
theorem position_forward {h : Nat} (hhead : r.head < r.size) (hh : h < r.size) :
    (r.head + (h + r.size - r.head) % r.size) % r.size = h := by
  have hback : r.head + (h + r.size - r.head) = h + r.size := by omega
  rw [Nat.add_mod_mod, hback, Nat.add_mod_right, Nat.mod_eq_of_lt hh]

/-! ### What a CQ_HEAD write releases -/

/-- Naming the tail releases every entry. -/
theorem release_tail (hlt : r.tail < r.size) : r.release r.tail = some { r with head := r.tail, unreleased := 0 } := by
  unfold release
  dsimp only
  rw [if_neg (Nat.not_le.mpr hlt), if_pos rfl]

/-- Before the tail the position `k` further on than the host head releases `k` entries. -/
theorem release_position {k : Nat} (hs : r.sound) (hk : k < r.unreleased) (hfull : r.unreleased < r.size) :
    r.release ((r.head + k) % r.size) =
      some { r with head := (r.head + k) % r.size, unreleased := r.unreleased - k } := by
  rcases hs with ⟨hsize, -⟩ | ⟨-, hhead, -, htail⟩
  · omega
  have hforward := forward_position hhead (hk.trans hfull)
  have hne : (r.head + k) % r.size ≠ r.tail := by
    intro heq
    have htailForward := forward_position hhead hfull
    rw [← htail, ← heq, hforward] at htailForward
    exact hk.ne htailForward
  unfold release
  dsimp only
  rw [if_neg (Nat.not_le.mpr (Nat.mod_lt _ (by omega))), if_neg hne, hforward, if_pos (by simp [hk, hfull])]

/-- What the host may name: the tail, or on a ring that is not full an unreleased record's position. -/
theorem release_cases {r' : CompletionRing} {h : Nat} (hs : r.sound) (hr : r.release h = some r') :
    h < r.size ∧ (h = r.tail ∧ r' = { r with head := h, unreleased := 0 } ∨
      ∃ k : Nat, k < r.unreleased ∧ r.unreleased < r.size ∧ h = (r.head + k) % r.size ∧
        r' = { r with head := h, unreleased := r.unreleased - k }) := by
  unfold release at hr
  dsimp only at hr
  split at hr
  · cases hr
  next hlt =>
  have hh : h < r.size := Nat.not_le.mp hlt
  refine ⟨hh, ?_⟩
  split at hr
  · next htail => exact .inl ⟨htail, (Option.some.inj hr).symm⟩
  split at hr
  · next hroom =>
    rw [Bool.and_eq_true, decide_eq_true_iff, decide_eq_true_iff] at hroom
    rcases hs with ⟨hsize, -⟩ | ⟨-, hhead, -, -⟩
    · omega
    · exact .inr ⟨_, hroom.2, hroom.1, (position_forward hhead hh).symm, (Option.some.inj hr).symm⟩
  · cases hr

end Positions

/-! ### The ring stays sound -/

namespace sound

variable {r : CompletionRing} (hs : r.sound)
include hs

/-- A write of CQ_HEAD that releases entries leaves a sound ring of the same size, with no more of them unreleased (R136). -/
theorem release {r' : CompletionRing} {h : Nat} (hr : r.release h = some r') :
    r'.sound ∧ r'.size = r.size ∧ r'.unreleased ≤ r.unreleased := by
  obtain ⟨hh, ⟨rfl, rfl⟩ | ⟨k, hk, hfull, hpos, rfl⟩⟩ := release_cases hs hr
  · exact ⟨.inr ⟨hh, hh, Nat.zero_le _, (Nat.mod_eq_of_lt hh).symm⟩, rfl, Nat.zero_le _⟩
  rcases hs with ⟨hsize, -⟩ | ⟨htail, -, hle, heq⟩
  · omega
  refine ⟨.inr ⟨htail, hh, (Nat.sub_le _ _).trans hle, ?_⟩, rfl, Nat.sub_le _ _⟩
  have hsum : r.head + k + (r.unreleased - k) = r.head + r.unreleased := by omega
  change r.tail = (h + (r.unreleased - k)) % r.size
  rw [hpos, Nat.mod_add_mod, hsum, heq]

/-- A ring with a free entry takes a record at its tail (R135). -/
theorem take (hfree : r.unreleased < r.size) : r.take.sound := by
  rcases hs with ⟨hsize, -⟩ | ⟨htail, hhead, -, heq⟩
  · omega
  have hnext : (r.head + (r.unreleased + 1)) % r.size = (r.tail + 1) % r.size := by
    rw [heq, Nat.mod_add_mod, Nat.add_assoc]
  rw [take_eq]
  refine .inr ⟨?_, hhead, hfree, ?_⟩
  · change (if r.tail + 1 = r.size then 0 else r.tail + 1) < r.size
    split
    · omega
    · omega
  · change (if r.tail + 1 = r.size then 0 else r.tail + 1) = (r.head + (r.unreleased + 1)) % r.size
    rw [hnext]
    split
    · next hend => rw [hend, Nat.mod_self]
    · next hend => rw [Nat.mod_eq_of_lt (by omega)]

end sound

end CompletionRing

/-- Settles O6: the tail, the positions before it, and every other value, which the ring does not let the host name. -/
theorem cqHeadReleasesEntries : Obligations.CqHeadReleasesEntries := by
  intro v s hs h r
  have hexec : ∀ r' : CompletionRing, r.release h = some r' →
      exec (.cqHeadWrite v) s = .next { s with writer := { s.writer with ring := r' } } := by
    intro r' hr
    simp only [exec, execCqHeadWrite]
    rw [show s.writer.ring.release (v.extractLsb' 0 16).toNat = some r' from hr]
  refine ⟨fun hlt htail => hexec _ ?_, fun k hk hfull hpos => hexec _ ?_, fun hother => ?_⟩
  · rw [htail]
    exact CompletionRing.release_tail (htail ▸ hlt)
  · rw [hpos]
    exact CompletionRing.release_position hs hk hfull
  · have hnone : r.release h = none := by
      refine Option.eq_none_iff_forall_not_mem.mpr fun r' hr => ?_
      obtain ⟨hlt, hcase⟩ := CompletionRing.release_cases hs hr
      rcases hother with hge | ⟨hne, hnot⟩
      · exact absurd hlt (Nat.not_lt.mpr hge)
      rcases hcase with ⟨htail, -⟩ | ⟨k, hk, hfull, hpos, -⟩
      · exact hne htail
      rcases hnot with heq | hpositions
      · exact hfull.ne heq
      · exact hpositions k hk.le hpos
    simp only [exec, execCqHeadWrite]
    rw [show s.writer.ring.release (v.extractLsb' 0 16).toNat = none from hnone]

end Sys2Proof.Machine
end

section
/-! CERTIFICATES. The head record's transaction: the lane result record writes, and the completion record write at once or
after the last of them (R76, R140, R141, R144, R147; log 34). -/

namespace Sys2Proof.Machine

/-- The Completion Writer may issue writes in every device state but two (R140, R144). -/
theorem State.writerRuns_iff (s : State) :
    s.writerRuns = true ↔ s.ctl.device ≠ .enabling ∧ s.ctl.device ≠ .fault := by
  unfold State.writerRuns
  rw [Bool.and_eq_true, bne_iff_ne, bne_iff_ne]

/-- The transaction in hand has no part in the completion record's write. -/
theorem completionOut_setTxn (s : State) (t : Option Transaction) (h : HeldRecord) :
    completionOut (s.setTxn t) h = completionOut s h := by
  cases h <;> rfl

/-! ### The result record writes of a job -/

section ResultWrites

variable {k : Job} {f : FinalStatus}

/-- A job without a result address has none (R76). -/
theorem resultWrites_of_no_address (h : k.spec.resultAddr = 0) : resultWrites k = [] := by
  unfold resultWrites
  split
  · rfl
  · rw [if_pos h]

/-- Nor has a job whose masks are empty (R147). -/
theorem resultWrites_of_no_lanes (hf : k.final = some f) (h : f.okMask ||| f.failMask = 0) : resultWrites k = [] := by
  have hlanes : lanesOf (0 : BitVec 16) = [] :=
    List.filter_eq_nil_iff.mpr fun i _ => by rw [not_inSet_zero]; exact Bool.false_ne_true
  unfold resultWrites
  rw [hf]
  dsimp only
  rw [h, hlanes, List.filterMap_nil, ite_self]

/-- The write of lane `i`'s result record, at the lane's place in the job's result area (R76). -/
def Job.resultWrite (k : Job) (i : LaneId) (x : LaneResult) : ResultWrite where
  lane := i
  out := { addr := k.spec.resultAddr + BitVec.ofNat 64 (32 * ordinal k.spec.lanes i), bytes := resultRecord i x }

/-- A job with a result address and its masks together its lane set has a write for each result of its lanes (R76). -/
theorem resultWrites_of_masks (haddr : k.spec.resultAddr ≠ 0) (hf : k.final = some f)
    (hmasks : f.okMask ||| f.failMask = k.spec.lanes) :
    resultWrites k = (lanesOf k.spec.lanes).filterMap fun i => (k.results[i.val]).map (k.resultWrite i) := by
  unfold resultWrites
  rw [hf]
  dsimp only
  rw [if_neg haddr, hmasks]
  rfl

/-- Where every lane of a list has a result, its writes go to these lanes in their order. -/
theorem map_lane_resultWrite {l : List LaneId} (h : ∀ i ∈ l, k.results[i.val] ≠ none) :
    (l.filterMap fun i => (k.results[i.val]).map (k.resultWrite i)).map ResultWrite.lane = l := by
  induction l with
  | nil => rfl
  | cons i l ih =>
    obtain ⟨x, hx⟩ := Option.ne_none_iff_exists'.mp (h i List.mem_cons_self)
    rw [List.filterMap_cons_some (by rw [hx]; rfl), List.map_cons, ih fun m hm => h m (List.mem_cons_of_mem i hm)]
    rfl

end ResultWrites

/-! ### The start of the transaction -/

section Start

variable {s : State} {h : HeldRecord} {rest : List HeldRecord}

/-- Without a record, a free entry or the right to write, or with a transaction in hand, nothing begins (log 2, log 4). -/
theorem exec_transactionStart_nothing (hstop : s.writer.holding = [] ∨ s.writer.txn.isSome = true ∨
    s.writer.ring.size ≤ s.writer.ring.unreleased ∨ s.ctl.device = .enabling ∨ s.ctl.device = .fault) :
    exec .completionTransactionStart s = .next s := by
  simp only [exec]
  unfold execCompletionTransactionStart
  split
  · next hhold htxn =>
    rw [if_neg]
    rw [Bool.and_eq_true, decide_eq_true_iff, State.writerRuns_iff]
    rintro ⟨⟨henabling, hfault⟩, hfree⟩
    rcases hstop with hs | hs | hs | hs | hs
    · rw [hs] at hhold; cases hhold
    · rw [htxn] at hs; cases hs
    · exact absurd hfree (Nat.not_lt.mpr hs)
    · exact henabling hs
    · exact hfault hs
  · rfl

variable (hhold : s.writer.holding = h :: rest) (htxn : s.writer.txn = none)
  (hfree : s.writer.ring.unreleased < s.writer.ring.size) (hruns : s.writerRuns = true)
include hhold htxn hfree hruns

/-- A head without result records has its completion record written at once (R140). -/
theorem exec_transactionStart_completion (hw : headWrites s h = []) :
    exec .completionTransactionStart s = .next (s.setTxn (some (.completion (completionOut s h)))) := by
  simp only [exec]
  unfold execCompletionTransactionStart
  rw [hhold, htxn]
  dsimp only
  rw [if_pos (by simp [hruns, hfree]), hw]

/-- A head with result records has all of them written first (R140). -/
theorem exec_transactionStart_results (hw : headWrites s h ≠ []) :
    exec .completionTransactionStart s = .next (s.setTxn (some (.results (headWrites s h)))) := by
  simp only [exec]
  unfold execCompletionTransactionStart
  rw [hhold, htxn]
  dsimp only
  rw [if_pos (by simp [hruns, hfree])]
  split
  · next hnil => exact absurd hnil hw
  · rfl

end Start

/-! ### The end of a result record's write -/

section Ends

variable {s : State} {i : LaneId} {ws : List ResultWrite}

theorem exec_resultRecordWriteEnd_good (htxn : s.writer.txn = some (.results ws)) :
    exec (.resultRecordWriteEnd .live i .good) s = .next
      (if ∃ w ∈ ws, w.lane = i then beginCompletion (s.setTxn (some (.results (ws.filter fun w => w.lane != i)))) else s) := by
  have hany : ws.any (fun w => w.lane == i) = true ↔ ∃ w ∈ ws, w.lane = i := by simp
  simp only [exec, execResultRecordWriteEnd, htxn, hany]
  split <;> rfl

/-- With writes still in flight the completion record waits for them. -/
theorem beginCompletion_of_writes (hws : ws ≠ []) :
    beginCompletion (s.setTxn (some (.results ws))) = s.setTxn (some (.results ws)) := by
  unfold beginCompletion
  split
  · next hnil _ => simp [hws] at hnil
  · rfl

/-- With none left it is written as soon as the Completion Writer may issue writes (R140, R141). -/
theorem beginCompletion_of_no_writes {h : HeldRecord} {rest : List HeldRecord} (hhold : s.writer.holding = h :: rest) :
    beginCompletion (s.setTxn (some (.results []))) =
      s.setTxn (some (if s.writerRuns then .completion (completionOut s h) else .results [])) := by
  unfold beginCompletion
  rw [State.setTxn_writer, hhold]
  dsimp only
  rw [completionOut_setTxn, show (s.setTxn (some (.results []))).writerRuns = s.writerRuns from rfl]
  split
  · rfl
  · rfl

end Ends

/-- Settles O27: the start by what the head record has to write, and a write's end by whether others are in flight. -/
theorem transactionWritesTheHeadRecord : Obligations.TransactionWritesTheHeadRecord := by
  refine ⟨fun s => ⟨exec_transactionStart_nothing, fun h rest hhold htxn hfree henabling hfault => ?_⟩,
    fun s i ws h rest htxn hhold => ?_⟩
  · have hruns : s.writerRuns = true := s.writerRuns_iff.mpr ⟨henabling, hfault⟩
    refine ⟨fun haddr _ => ?_, ?_, ?_⟩
    · refine exec_transactionStart_completion hhold htxn hfree hruns ?_
      cases h with
      | job n =>
        unfold headWrites
        dsimp only
        split
        · rfl
        · next k hk => exact resultWrites_of_no_address (haddr n k rfl hk)
      | intake c => rfl
      | event i e => rfl
    · rintro n k f rfl hk hf hmasks
      refine exec_transactionStart_completion hhold htxn hfree hruns ?_
      simp only [headWrites, hk]
      exact resultWrites_of_no_lanes hf hmasks
    · rintro n k f rfl hk haddr hf hmasks hlanes hresults
      have hmem : ∀ i ∈ lanesOf k.spec.lanes, k.results[i.val] ≠ none := fun i hi => hresults i ((mem_lanesOf _ i).mp hi)
      have hwrites : headWrites s (.job n) =
          (lanesOf k.spec.lanes).filterMap fun i => (k.results[i.val]).map (k.resultWrite i) := by
        simp only [headWrites, hk]
        exact resultWrites_of_masks haddr hf hmasks
      have hmap : (headWrites s (.job n)).map ResultWrite.lane = lanesOf k.spec.lanes := by
        rw [hwrites]
        exact map_lane_resultWrite hmem
      have hne : headWrites s (.job n) ≠ [] := by
        intro hnil
        rw [hnil] at hmap
        exact hlanes ((laneSet_eq_zero_iff _).mpr fun i hi => List.not_mem_nil (hmap ▸ (mem_lanesOf _ i).mpr hi))
      refine ⟨_, exec_transactionStart_results hhold htxn hfree hruns hne, hmap, fun w hw => ?_⟩
      rw [hwrites] at hw
      obtain ⟨i, -, hwrite⟩ := List.mem_filterMap.mp hw
      obtain ⟨x, hx, rfl⟩ := Option.map_eq_some_iff.mp hwrite
      refine ⟨x, hx, rfl, length_resultRecord i x, ?_⟩
      exact congrArg (fun m => k.spec.resultAddr + BitVec.ofNat 64 (32 * m)) (ordinal_eq_length k.spec.lanes i)
  · have hends := exec_resultRecordWriteEnd_good (i := i) htxn
    have hlast : (∀ w ∈ ws, w.lane = i) → ws.filter (fun w => w.lane != i) = [] := fun hall =>
      List.filter_eq_nil_iff.mpr fun w hw => by simp [hall w hw]
    refine ⟨fun hmine ⟨w, hw, hother⟩ => ?_, fun hmine hall henabling hfault => ?_, fun hmine hall hstop => ?_, fun hnone => ?_⟩
    · have hne : ws.filter (fun w => w.lane != i) ≠ [] :=
        List.ne_nil_of_mem (List.mem_filter.mpr ⟨hw, by simpa using hother⟩)
      rw [hends, if_pos hmine, beginCompletion_of_writes hne]
      rfl
    · rw [hends, if_pos hmine, hlast hall, beginCompletion_of_no_writes hhold,
        if_pos (s.writerRuns_iff.mpr ⟨henabling, hfault⟩)]
      rfl
    · have hwaits : ¬ s.writerRuns = true := by
        rw [s.writerRuns_iff]
        rintro ⟨henabling, hfault⟩
        rcases hstop with hd | hd
        · exact henabling hd
        · exact hfault hd
      rw [hends, if_pos hmine, hlast hall, beginCompletion_of_no_writes hhold, if_neg hwaits]
      rfl
    · rw [hends, if_neg]
      rintro ⟨w, hw, hlane⟩
      exact hnone w hw hlane

end Sys2Proof.Machine
end

section
/-! SUPPORT. Which operations of the lanes and of the Job Manager leave the Completion Writer as it is, and that of the
others all but those of the Completion Writer itself at most offer it candidates (R49, R133, R138, R139). -/

namespace Sys2Proof.Machine

/-! ### Operations that leave the Completion Writer -/

section Leaves

variable (s : State) (i : LaneId)

@[simp] theorem send_writer (k : ReqKind) (p : List Byte) : (send s i k p).writer = s.writer := by
  rcases send_cases s i k p with h | h
  · rw [h]
  · rw [h, State.setLane_writer]

@[simp] theorem retransmitAtOnce_writer : (retransmitAtOnce s i).writer = s.writer := by
  unfold retransmitAtOnce
  split
  · rfl
  · split <;> rfl

@[simp] theorem credentialStep_writer (sel : Selector) : (credentialStep s i sel).1.writer = s.writer := by
  unfold credentialStep
  repeat' split
  all_goals simp

@[simp] theorem unlockDecision_writer (p : AttachParams) : (unlockDecision s i p).1.writer = s.writer := by
  unfold unlockDecision
  repeat' split
  all_goals simp

@[simp] theorem rateDecision_writer (p : AttachParams) : (rateDecision s i p).1.writer = s.writer := by
  unfold rateDecision
  repeat' split
  all_goals simp

@[simp] theorem sendChunk_writer (n : SlotId) (g : Segment) : (sendChunk s i n g).writer = s.writer := by
  obtain ⟨l, h, -⟩ := sendChunk_setLane s i n g
  rw [h, State.setLane_writer]

@[simp] theorem programErase_writer (n : SlotId) (k : Nat) (g : Segment) :
    (programErase s i n k g).writer = s.writer := by
  obtain ⟨l, h, -⟩ := programErase_setLane s i n k g
  rw [h, State.setLane_writer]

/-- What a step in hand calls for is a request of its lane. -/
@[simp] theorem proceed_writer : (proceed s i).1.writer = s.writer := by
  unfold proceed
  split
  · rfl
  dsimp only
  split
  case h_7 | h_8 | h_9 | h_11 | h_12 | h_13 | h_14 | h_15 | h_16 | h_17 => split <;> simp
  all_goals simp

@[simp] theorem enterStep_writer (st : Step) : (enterStep s i st).1.writer = s.writer := proceed_writer _ i

@[simp] theorem attachTakeUp_writer (p : AttachParams) : (attachTakeUp s i p).writer = s.writer := by simp [attachTakeUp]

@[simp] theorem detachOff_writer : (detachOff s i).writer = s.writer := by simp [detachOff]

@[simp] theorem becomeCurrent_writer (n : SlotId) : (becomeCurrent s i n).writer = s.writer := by simp [becomeCurrent]

@[simp] theorem fillWindow_writer (n : SlotId) (j : Job) : (fillWindow s i n j).writer = s.writer := rfl

@[simp] theorem firstStep_writer (n : SlotId) (j : Job) : (firstStep s i n j).1.writer = s.writer := by
  unfold firstStep
  split
  case h_2 => split <;> simp
  all_goals simp

@[simp] theorem sessionJobTakeUp_writer (n : SlotId) (j : Job) : (sessionJobTakeUp s i n j).1.writer = s.writer := by
  unfold sessionJobTakeUp
  repeat' split
  all_goals simp

/-- A job that is taken up has offered nothing yet (R32). -/
@[simp] theorem takeUp_writer (n : SlotId) : (takeUp s i n).1.writer = s.writer := by
  unfold takeUp
  split
  · rfl
  dsimp only
  split
  case h_2 =>
    repeat' split
    all_goals simp
  all_goals simp

@[simp] theorem consumeBlock_writer (n : SlotId) (g b : Nat) : (consumeBlock s i n g b).writer = s.writer := by
  unfold consumeBlock
  split <;> rfl

@[simp] theorem writeAcked_writer (n : SlotId) (g : Segment) (c : List Byte) :
    (writeAcked s i n g c).writer = s.writer := by
  unfold writeAcked
  dsimp only
  split <;> simp

@[simp] theorem answerEffect_writer (n : SlotId) (j : Job) (q : Request) (p : List Byte) :
    (answerEffect s i n j q p).writer = s.writer := by
  unfold answerEffect
  dsimp only
  split
  case h_3 | h_9 | h_11 => split <;> simp
  all_goals simp

@[simp] theorem nextSegment_writer (j : Job) (k : Nat) : (nextSegment s i j k).1.writer = s.writer := by
  unfold nextSegment
  dsimp only
  split <;> simp

@[simp] theorem segmentWritten_writer (j : Job) (k : Nat) (g : Segment) :
    (segmentWritten s i j k g).1.writer = s.writer := by
  unfold segmentWritten
  repeat' split
  all_goals simp

/-- The way on after a good answer is a step of the same job, or its end still to come. -/
@[simp] theorem afterAnswer_writer (n : SlotId) (j : Job) (b : Lane) (q : Request) (p : List Byte) :
    (afterAnswer s i n j b q p).1.writer = s.writer := by
  unfold afterAnswer
  dsimp only
  split
  case h_9 =>
    split
    · rfl
    have hfill : (if decide ((s.lane i).segment = b.segment) && decide ((s.lane i).block = b.block) then s
        else fillWindow s i n j).writer = s.writer := by
      split <;> rfl
    split
    · rw [enterStep_writer]; exact hfill
    · rw [segmentWritten_writer]; exact hfill
  case h_1 | h_2 | h_7 | h_10 | h_11 =>
    repeat' split
    all_goals simp
  all_goals simp

@[simp] theorem goodAnswer_writer (n : SlotId) (j : Job) (q : Request) (p : List Byte) :
    (goodAnswer s i n j q p).1.writer = s.writer := by
  unfold goodAnswer
  dsimp only
  repeat' split
  all_goals simp

@[simp] theorem refuse_writer (j : Job) (q : Request) (r : NakReason) : (refuse s i j q r).1.writer = s.writer := by
  unfold refuse
  dsimp only
  split <;> simp

@[simp] theorem readbackWritten_writer (j : Job) (off : Nat) : (readbackWritten s i j off).1.writer = s.writer := by
  unfold readbackWritten
  dsimp only
  repeat' split
  all_goals simp

@[simp] theorem joinQueues_writer (n : SlotId) (l : List LaneId) : (l.foldl (joinQueue n) s).writer = s.writer :=
  foldl_keeps State.writer (joinQueue n) (fun _ _ => rfl) l s

@[simp] theorem holdEntry_writer (r : RingId) (j : JobSpec) (cause : Blocked) :
    (holdEntry s r j cause).writer = s.writer := rfl

@[simp] theorem clearCredentials_writer (e : Option CredId) : (clearCredentials s e).1.writer = s.writer := by
  unfold clearCredentials
  split
  · split <;> rfl
  · split <;> rfl

@[simp] theorem haltCommand_writer : (haltCommand s).writer = s.writer := by
  unfold haltCommand enterQuiescing
  split <;> simp

@[simp] theorem enableCommand_writer : (enableCommand s).writer = s.writer := by
  unfold enableCommand
  split <;> rfl

@[simp] theorem applySubmit_writer (ring index : Nat) : (applySubmit s ring index).writer = s.writer := by
  unfold applySubmit
  split
  · rfl
  · split <;> rfl

end Leaves

/-! ### Operations that at most offer candidates -/

/-- From `s` to `t` the Completion Writer has at most been offered candidates: its ring and its transaction stand, and its
queues stay sound. -/
structure OffersOnly (s t : State) : Prop where
  ring : t.writer.ring = s.writer.ring
  txn : t.writer.txn = s.writer.txn
  queues : s.writer.queuesSound → t.writer.queuesSound

namespace OffersOnly

theorem refl (s : State) : OffersOnly s s := ⟨rfl, rfl, id⟩

theorem trans {s t u : State} (h : OffersOnly s t) (k : OffersOnly t u) : OffersOnly s u :=
  ⟨k.ring.trans h.ring, k.txn.trans h.txn, k.queues ∘ h.queues⟩

theorem of_writer {s t : State} (h : t.writer = s.writer) : OffersOnly s t := by
  refine ⟨?_, ?_, fun hs => ?_⟩
  · rw [h]
  · rw [h]
  · rw [h]; exact hs

theorem foldl {α : Type} {f : State → α → State} (hf : ∀ s a, OffersOnly s (f s a)) (l : List α) (s : State) :
    OffersOnly s (l.foldl f s) :=
  List.foldlRecOn l f (refl s) fun t ht a _ => ht.trans (hf t a)

/-! ### Entering and waiting -/

/-- A record enters where there is room for it (R138). -/
theorem pushHolding {s : State} (hroom : s.writer.holding.length < Config.holdingRoom) (r : HeldRecord) :
    OffersOnly s (s.pushHolding r) := by
  refine ⟨rfl, rfl, fun ⟨_, hnodup⟩ => ⟨?_, hnodup⟩⟩
  rw [State.pushHolding_writer, List.length_append, List.length_singleton]
  exact hroom

/-- A candidate that waits already does not join the wait list again (R138). -/
theorem joinWait (s : State) (c : Candidate) : OffersOnly s (s.joinWait c) := by
  unfold State.joinWait
  split
  · exact refl s
  · next hnew =>
    have hout : c ∉ s.writer.waitList := mt List.contains_iff_mem.mpr hnew
    refine ⟨rfl, rfl, fun ⟨hroom, hnodup⟩ => ⟨hroom, ?_⟩⟩
    simpa only [List.concat_eq_append] using hnodup.concat hout

/-- A candidate that may enter at once finds room. -/
theorem room_of_canEnter {s : State} (h : s.canEnter = true) : s.writer.holding.length < Config.holdingRoom := by
  unfold State.canEnter at h
  rw [Bool.and_eq_true, decide_eq_true_iff] at h
  exact h.2

theorem offerJob (s : State) (n : SlotId) : OffersOnly s (offerJob s n) := by
  unfold Machine.offerJob
  split
  · next hopen => exact pushHolding (room_of_canEnter hopen) _
  · exact joinWait s _

theorem offerIfClear (s : State) (n : SlotId) : OffersOnly s (offerIfClear s n) := by
  unfold Machine.offerIfClear
  split
  · exact refl s
  split
  · exact offerJob s n
  · exact refl s

/-! ### Retiring and freeing -/

theorem retireIfDone (s : State) (n : SlotId) : OffersOnly s (retireIfDone s n) := by
  unfold Machine.retireIfDone
  split
  · exact refl s
  split
  · exact .trans (of_writer (State.setSlot_writer s n _)) (offerIfClear _ n)
  · exact refl s

theorem retireBarrier (s : State) (n : SlotId) (st : Status) : OffersOnly s (retireBarrier s n st) := by
  unfold Machine.retireBarrier
  split
  · exact refl s
  · dsimp only
    exact .trans (of_writer (by rfl)) (offerJob _ n)

theorem leaveWaitSet (n : SlotId) (s : State) (m : SlotId) : OffersOnly s (leaveWaitSet n s m) := by
  unfold Machine.leaveWaitSet
  split
  · exact refl s
  split
  · dsimp only
    split
    · exact retireBarrier s m _
    · exact of_writer rfl
  · exact refl s

/-- A slot that becomes FREE offers the barriers whose wait sets empty (R74). -/
theorem freeSlot (s : State) (n : SlotId) : OffersOnly s (freeSlot s n) := by
  have hfreed : OffersOnly s (s.setSlot n none) := of_writer rfl
  have hleft := hfreed.trans (foldl (leaveWaitSet n) allSlots _)
  exact hleft.trans (of_writer (State.unblockSlot_writer _))

/-! ### The holding queue's candidates -/

/-- With a place for it, a candidate enters; the slot of one completed from INTAKE becomes FREE after that (R131). -/
theorem enterHolding {s : State} (hroom : s.writer.holding.length < Config.holdingRoom) (c : Candidate) :
    OffersOnly s (enterHolding s c) := by
  unfold Machine.enterHolding
  cases c with
  | job n => exact pushHolding hroom _
  | engine =>
    dsimp only
    split
    · exact (pushHolding hroom _).trans (of_writer rfl)
    all_goals exact refl s
  | intakeJob n =>
    dsimp only
    split
    · exact refl s
    next j _ =>
    split
    · exact refl s
    next e _ =>
    have hpush := pushHolding hroom (.intake (j.intakeCompletion e))
    have hring := hpush.trans (of_writer (State.modRing_writer _ j.ring fun r => { r with inIntake := false }))
    exact hring.trans ((freeSlot _ n).trans (of_writer (by simp)))
  | laneEvent i =>
    dsimp only
    split
    · exact refl s
    · exact (pushHolding hroom _).trans (of_writer rfl)

theorem offer (s : State) (c : Candidate) : OffersOnly s (offer s c) := by
  unfold Machine.offer
  split
  · next hopen => exact enterHolding (room_of_canEnter hopen) c
  · exact joinWait s c

theorem postIntake (s : State) (c : IntakeCompletion) : OffersOnly s (postIntake s c) :=
  .trans (of_writer (State.setEngine_writer s _)) (offer _ .engine)

/-- The front of the wait list leaves it for a free place (R138). -/
theorem promote (s : State) : OffersOnly s (promote s) := by
  unfold Machine.promote
  split
  · exact refl s
  next c rest hwait =>
  split
  · next hopen =>
    rw [Bool.and_eq_true, decide_eq_true_iff] at hopen
    have hfront : OffersOnly s (s.waitingBehind rest) :=
      ⟨rfl, rfl, fun ⟨hroom, hnodup⟩ => ⟨hroom, (List.nodup_cons.mp (hwait ▸ hnodup)).2⟩⟩
    exact hfront.trans (enterHolding (s := s.waitingBehind rest) hopen.2 c)
  · exact refl s

/-! ### The end of a job and the next one -/

theorem closeJob (s : State) (i : LaneId) (n : SlotId) (r : LaneResult) : OffersOnly s (closeJob s i n r) := by
  unfold Machine.closeJob
  exact .trans (of_writer (by simp)) (retireIfDone _ n)

theorem removeJob (s : State) (i : LaneId) (n : SlotId) (j : Job) (v : Verdict) :
    OffersOnly s (removeJob s i n j v) := by
  unfold Machine.removeJob
  exact .trans (of_writer (by simp)) (retireIfDone _ n)

theorem conclude (s : State) (i : LaneId) (n : SlotId) (v : Verdict) : OffersOnly s (conclude s i n v) := by
  unfold Machine.conclude
  split <;> exact closeJob s i n _

/-- However many jobs end at once, they are offered one after the other (R58). -/
theorem settle (fuel : Nat) (s : State) (i : LaneId) : OffersOnly s (settle fuel s i) := by
  induction fuel generalizing s with
  | zero => exact refl s
  | succ fuel ih =>
    unfold Machine.settle
    split
    · exact refl s
    next n _ _ =>
    have hcur : OffersOnly s (becomeCurrent s i n) := of_writer (by simp)
    have htake : OffersOnly s (takeUp (becomeCurrent s i n) i n).1 := of_writer (by simp)
    dsimp only
    split
    · exact hcur
    split
    · next heq => rw [heq] at htake; exact htake
    · next heq => rw [heq] at htake; exact htake.trans ((conclude _ i n _).trans (ih _))

theorem nextJob (s : State) (i : LaneId) : OffersOnly s (nextJob s i) := settle _ s i

theorem finishLane (s : State) (i : LaneId) (v : Verdict) : OffersOnly s (finishLane s i v) := by
  unfold Machine.finishLane
  split
  · exact refl s
  · exact (conclude s i _ v).trans (nextJob _ i)

/-- An operation of a lane's engine that leaves the Completion Writer, brought to its end. -/
theorem resolveStep {s : State} {p : Stepped} (h : p.1.writer = s.writer) (i : LaneId) :
    OffersOnly s (resolveStep i p) := by
  unfold Machine.resolveStep
  split
  · exact of_writer h
  · exact (of_writer h).trans (finishLane _ i _)

/-! ### Lane faults -/

theorem raiseEvent (s : State) (i : LaneId) (code : FaultCode) : OffersOnly s (raiseEvent s i code) :=
  .trans (of_writer (State.modLane_writer s i _)) (offer _ (.laneEvent i))

/-- A fault ends the current job or raises a lane event (R44, R49). -/
theorem faultLane (s : State) (i : LaneId) (code : FaultCode) (refused : Bool) :
    OffersOnly s (faultLane s i code refused) := by
  have hoff : OffersOnly s (if code.isSupply then switchOff ((releasePin s i).modLane i
      (fun k => k.enterFaulted code)) i else (releasePin s i).modLane i (fun k => k.enterFaulted code)) := by
    split <;> exact of_writer (by simp)
  unfold Machine.faultLane
  split
  · split
    · exact of_writer (by simp)
    · exact refl s
  · dsimp only
    split
    · exact hoff.trans ((closeJob _ i _ _).trans (nextJob _ i))
    · exact hoff.trans (raiseEvent _ i code)

theorem laneFault (s : State) (i : LaneId) (code : FaultCode) : OffersOnly s (laneFault s i code) :=
  faultLane s i code false

/-- A lane fault of a lane that has been changed. -/
theorem laneFault_modLane (s : State) (i : LaneId) (f : Lane → Lane) (code : FaultCode) :
    OffersOnly s (Machine.laneFault (s.modLane i f) i code) :=
  .trans (of_writer (State.modLane_writer s i f)) (laneFault _ i code)

/-! ### Frames and conversion results -/

theorem takeWait (s : State) (i : LaneId) (q : Request) (estimate : Nat) : OffersOnly s (takeWait s i q estimate) := by
  unfold Machine.takeWait
  split
  · exact laneFault s i _
  · exact of_writer rfl

theorem takeFrame (s : State) (i : LaneId) (seq kind : Byte) (payload : List Byte) :
    OffersOnly s (takeFrame s i seq kind payload) := by
  unfold Machine.takeFrame
  split
  · split
    · exact refl s
    split
    · exact laneFault s i _
    · exact takeWait s i _ _
    · split
      · exact of_writer (by simp)
      split
      · exact faultLane s i _ _
      · exact resolveStep (refuse_writer s i _ _ _) i
    · split
      · exact laneFault s i _
      · exact resolveStep (goodAnswer_writer s i _ _ _ _) i
  · exact refl s

theorem takeCheck (s : State) (i : LaneId) (mv : Nat) : OffersOnly s (takeCheck s i mv) := by
  unfold Machine.takeCheck
  split
  · dsimp only
    split
    · repeat' split
      all_goals exact of_writer rfl
    split
    · exact laneFault_modLane s i _ _
    · exact of_writer rfl
  · exact refl s

theorem takeSupervise (s : State) (i : LaneId) (mv : Nat) : OffersOnly s (takeSupervise s i mv) := by
  unfold Machine.takeSupervise
  split
  · exact of_writer rfl
  split
  · exact of_writer rfl
  · exact laneFault_modLane s i _ _

/-! ### Jobs placed, aborted, and failed by their image -/

theorem placeBarrier (s : State) (n : SlotId) (j : Job) : OffersOnly s (placeBarrier s n j) := by
  unfold Machine.placeBarrier
  dsimp only
  split
  · exact retireBarrier s n _
  · exact of_writer rfl

theorem placeLaneJob (s : State) (n : SlotId) (j : Job) : OffersOnly s (placeLaneJob s n j) := by
  unfold Machine.placeLaneJob
  exact .trans (of_writer (by simp)) (foldl nextJob _ _)

theorem place (s : State) (n : SlotId) : OffersOnly s (place s n) := by
  unfold Machine.place
  split
  · exact refl s
  next j _ =>
  have hring : OffersOnly s (s.modRing j.ring (fun r => { r with inIntake := false })) := of_writer rfl
  dsimp only
  split
  case h_1 => exact hring.trans (placeBarrier _ n j)
  case h_9 | h_10 | h_11 => exact hring
  all_goals exact hring.trans (placeLaneJob _ n j)

theorem claim (s : State) (r : RingId) (j : JobSpec) (n : SlotId) : OffersOnly s (claim s r j n) := by
  unfold Machine.claim
  dsimp only
  split
  · exact of_writer rfl
  · exact .trans (of_writer (by rfl)) (place _ n)

theorem examine (s : State) (r : RingId) (j : JobSpec) : OffersOnly s (examine s r j) := by
  unfold Machine.examine
  split
  · exact of_writer rfl
  split
  · exact claim s r j _
  · exact of_writer rfl

theorem abortLane (n : SlotId) (s : State) (i : LaneId) : OffersOnly s (abortLane n s i) := by
  unfold Machine.abortLane
  split
  · exact refl s
  split
  · exact refl s
  split
  · exact removeJob s i n _ _
  split
  · unfold abortBeforeIdentity
    exact .trans (of_writer (by simp)) (finishLane _ i _)
  split
  · exact refl s
  · exact finishLane s i _

theorem abortJob (s : State) (n : SlotId) (j : Job) : OffersOnly s (abortJob s n j) := by
  unfold Machine.abortJob
  split
  · exact refl s
  · exact of_writer rfl
  · exact retireBarrier s n _
  · exact foldl (abortLane n) _ s
  · exact .trans (of_writer (State.setSlot_writer s n _)) (foldl (abortLane n) _ _)

theorem abortLookup (s : State) (own : IntakeCompletion) (r : RingId) (tag : BitVec 16) :
    OffersOnly s (abortLookup s own r tag) := by
  unfold Machine.abortLookup
  split
  · exact postIntake s _
  split
  · exact postIntake s _
  split
  · exact (postIntake s _).trans (abortJob _ _ _)
  · exact postIntake s _

/-- A record that has been read good, whatever it asks for (R127 to R130). -/
theorem takeRecord (s : State) (r : RingId) (bytes : List Byte) : OffersOnly s (takeRecord s r bytes) := by
  unfold Machine.takeRecord
  split
  · exact postIntake s _
  split
  · exact postIntake s _
  split
  case h_1 => exact abortLookup s _ _ _
  case h_2 e _ => exact .trans (of_writer (clearCredentials_writer s e)) (postIntake _ _)
  case h_3 => exact of_writer rfl
  all_goals exact examine s _ _

theorem retireAborted (s : State) (n : SlotId) (j : Job) : OffersOnly s (retireAborted s n j) := by
  unfold Machine.retireAborted
  exact .trans (of_writer (by simp)) (offerIfClear _ n)

theorem completeFromIntake (s : State) (n : SlotId) (j : Job) (st : Status) (d : Detail) :
    OffersOnly s (completeFromIntake s n j st d) :=
  .trans (of_writer (State.setSlot_writer s n _)) (offer _ (.intakeJob n))

theorem imageFailedLane (n : SlotId) (s : State) (i : LaneId) : OffersOnly s (imageFailedLane n s i) := by
  unfold Machine.imageFailedLane
  split
  · exact refl s
  split
  · exact finishLane s i _
  · exact refl s

theorem imageFailed (s : State) (n : SlotId) (g b : Nat) : OffersOnly s (imageFailed s n g b) := by
  unfold Machine.imageFailed
  split
  · exact refl s
  split
  · exact refl s
  · exact .trans (of_writer (State.setSlot_writer s n _)) (foldl (imageFailedLane n) _ _)

end OffersOnly

end Sys2Proof.Machine
end

section
/-! CERTIFICATES. Every command keeps the Completion Writer sound (R135, R138, R140): those of the lanes, of the intake and of
the pool at most offer candidates, and those of the Completion Writer move its ring and its transaction. -/

namespace Sys2Proof.Machine

/-- The command at most offers candidates. -/
def OffersAtMost (s : State) (r : Result) : Prop := ∀ t : State, r = .next t → OffersOnly s t

theorem OffersOnly.next {s t : State} (h : OffersOnly s t) : OffersAtMost s (.next t) := by
  intro u hu
  obtain rfl : t = u := by simpa using hu
  exact h

theorem offers_same (s : State) : OffersAtMost s (.next s) := (OffersOnly.refl s).next

theorem offers_of_writer {s t : State} (h : t.writer = s.writer) : OffersAtMost s (.next t) := (OffersOnly.of_writer h).next

theorem offers_resolveStep {s : State} {p : Stepped} (h : p.1.writer = s.writer) (i : LaneId) :
    OffersAtMost s (.next (resolveStep i p)) := (OffersOnly.resolveStep h i).next

section Offering

variable {s : State}

/-! ### The Loader Link -/

theorem offers_spoilFrame (i : LaneId) : OffersAtMost s (.next (spoilFrame s i)) := offers_of_writer (by simp [spoilFrame])

theorem execChunkSend_offers (i : LaneId) : OffersAtMost s (execChunkSend i s) := by
  unfold execChunkSend
  split
  · exact offers_resolveStep (proceed_writer s i) i
  · exact offers_same s

theorem execReadbackWriteEnd_offers (e : Epoch) (i : LaneId) (r : HostWrite) :
    OffersAtMost s (execReadbackWriteEnd e i r s) := by
  unfold execReadbackWriteEnd
  split
  · split
    · unfold endedWriteOut
      dsimp only
      split
      · exact offers_resolveStep (by simp) i
      · exact offers_of_writer rfl
    · exact offers_same s
  · split
    · split
      · exact offers_resolveStep (readbackWritten_writer s i _ _) i
      · exact offers_resolveStep (State.modLane_writer s i _) i
    · exact offers_same s

theorem execFrameSent_offers (i : LaneId) : OffersAtMost s (execFrameSent i s) := by
  unfold execFrameSent
  split
  · exact offers_same s
  · exact offers_same s
  dsimp only
  split
  · exact offers_of_writer rfl
  split
  · exact offers_of_writer rfl
  split
  · exact offers_resolveStep (by simp) i
  · exact offers_of_writer rfl

theorem execResponseTimeout_offers (i : LaneId) : OffersAtMost s (execResponseTimeout i s) := by
  unfold execResponseTimeout
  split
  · exact offers_same s
  split
  · exact offers_same s
  split
  · exact offers_of_writer rfl
  · exact (OffersOnly.laneFault s i _).next

theorem execFrameReceived_offers (i : LaneId) (chars : List Byte) : OffersAtMost s (execFrameReceived i chars s) := by
  unfold execFrameReceived
  split
  · split
    · exact (OffersOnly.trans (.of_writer (State.modLane_writer s i _)) (.takeFrame _ i _ _ _)).next
    all_goals exact offers_same s
  · exact offers_same s

theorem execFrameSpoiled_offers (i : LaneId) (chars : List Byte) (bad : Option RxChar) :
    OffersAtMost s (execFrameSpoiled i chars bad s) := by
  unfold execFrameSpoiled
  split
  · exact offers_spoilFrame i
  · exact offers_same s

theorem execFrameGapTimeout_offers (i : LaneId) : OffersAtMost s (execFrameGapTimeout i s) := by
  unfold execFrameGapTimeout
  split
  · exact offers_spoilFrame i
  · exact offers_same s

theorem execFrameCharacterReceived_offers (i : LaneId) (char : RxChar) :
    OffersAtMost s (execFrameCharacterReceived i char s) := by
  unfold execFrameCharacterReceived
  split <;> exact offers_of_writer rfl

/-! ### The phases of ATTACH -/

theorem execTrainingPatternSent_offers (i : LaneId) : OffersAtMost s (execTrainingPatternSent i s) := by
  unfold execTrainingPatternSent
  split <;> exact offers_of_writer rfl

theorem execTrainingCharacterReceived_offers (i : LaneId) (char : RxChar) :
    OffersAtMost s (execTrainingCharacterReceived i char s) := by
  unfold execTrainingCharacterReceived
  split
  · split
    · exact offers_of_writer rfl
    · exact offers_resolveStep (by simp) i
  · exact offers_same s

/-- The fourth attempt faults the lane (R5). -/
theorem execTrainingTimeout_offers (i : LaneId) : OffersAtMost s (execTrainingTimeout i s) := by
  unfold execTrainingTimeout
  split
  · dsimp only
    split
    · exact (OffersOnly.laneFault_modLane s i _ _).next
    split
    · exact offers_of_writer rfl
    split <;> exact offers_of_writer rfl
  · exact offers_same s

theorem execPowerSettleExpiry_offers (i : LaneId) : OffersAtMost s (execPowerSettleExpiry i s) := by
  unfold execPowerSettleExpiry
  split <;> exact offers_of_writer rfl

theorem execCheckWaitExpiry_offers (i : LaneId) : OffersAtMost s (execCheckWaitExpiry i s) := by
  unfold execCheckWaitExpiry
  split <;> exact offers_of_writer rfl

theorem execResetPulseExpiry_offers (i : LaneId) : OffersAtMost s (execResetPulseExpiry i s) := by
  unfold execResetPulseExpiry
  repeat' split
  all_goals exact offers_of_writer rfl

theorem execBootSettleExpiry_offers (i : LaneId) : OffersAtMost s (execBootSettleExpiry i s) := by
  unfold execBootSettleExpiry
  dsimp only
  repeat' split
  all_goals exact offers_of_writer rfl

theorem execRateGapExpiry_offers (i : LaneId) : OffersAtMost s (execRateGapExpiry i s) := by
  unfold execRateGapExpiry
  split
  · exact offers_same s
  dsimp only
  split
  · exact offers_resolveStep (by simp) i
  · exact offers_of_writer rfl

/-! ### The Supply Monitor -/

theorem execSuperviseTimerExpiry_offers : OffersAtMost s (execSuperviseTimerExpiry s) := by
  unfold execSuperviseTimerExpiry
  split <;> exact offers_of_writer rfl

theorem execConversionStart_offers : OffersAtMost s (execConversionStart s) := by
  unfold execConversionStart
  repeat' split
  all_goals exact offers_of_writer rfl

theorem execConversionEnd_offers (mv : Int) : OffersAtMost s (execConversionEnd mv s) := by
  unfold execConversionEnd
  split
  · exact offers_same s
  next c _ =>
  have hsample : OffersOnly s (State.modLane { s with supply := { s.supply with converter := none } } c.lane
      (fun l => { l with lastSample := sampleOf mv })) := .of_writer rfl
  dsimp only
  split
  · exact offers_of_writer rfl
  split
  · exact (hsample.trans (.takeCheck _ _ _)).next
  · exact (hsample.trans (.takeSupervise _ _ _)).next

theorem execOvercurrentTrip_offers (i : LaneId) : OffersAtMost s (execOvercurrentTrip i s) := by
  unfold execOvercurrentTrip
  split
  · exact (OffersOnly.laneFault s i _).next
  · exact offers_same s

/-! ### The Staging Pool -/

theorem execStagingReadIssue_offers : OffersAtMost s (execStagingReadIssue s) := by
  unfold execStagingReadIssue
  repeat' split
  all_goals exact offers_of_writer rfl

/-- The last orphan of a RETIRING job lets it be offered (R92). -/
theorem OffersOnly.blockReadEnd (b : BlockId) (k : Block) (r : HostRead) : OffersOnly s (blockReadEnd s b k r) := by
  have hfreed : OffersOnly s (s.setPool (s.pool.free b)) := .of_writer rfl
  unfold Machine.blockReadEnd
  split
  · split
    · exact .refl s
    split
    · exact hfreed.trans (offerIfClear _ _)
    · exact .of_writer rfl
  · exact hfreed.trans ((imageFailed _ _ _ _).trans (offerIfClear _ _))

theorem execStagingReadEnd_offers (e : Epoch) (b : BlockId) (r : HostRead) :
    OffersAtMost s (execStagingReadEnd e b r s) := by
  unfold execStagingReadEnd
  split
  · exact offers_of_writer rfl
  split
  · exact offers_same s
  split
  · exact (OffersOnly.blockReadEnd b _ r).next
  · exact offers_same s

/-! ### The Intake Unit -/

theorem execIntakeArbiterChoice_offers : OffersAtMost s (execIntakeArbiterChoice s) := by
  unfold execIntakeArbiterChoice
  split
  · split
    · unfold chooseRing
      dsimp only
      split
      · exact (OffersOnly.trans (.of_writer (by rfl)) (.examine _ _ _)).next
      · exact offers_of_writer rfl
    · exact offers_same s
  · exact offers_same s

theorem execRecordReadEnd_offers (e : Epoch) (r : HostRead) : OffersAtMost s (execRecordReadEnd e r s) := by
  unfold execRecordReadEnd
  split
  · split
    · exact offers_same s
    split
    · exact offers_of_writer (by simp)
    split
    · exact (OffersOnly.takeRecord s _ _).next
    · exact offers_same s
  · exact offers_same s

theorem execLoadCredentialReadEnd_offers (e : Epoch) (r : HostRead) :
    OffersAtMost s (execLoadCredentialReadEnd e r s) := by
  unfold execLoadCredentialReadEnd
  split
  · split
    · split
      · exact offers_same s
      split
      · exact (OffersOnly.postIntake s _).next
      split
      · exact offers_same s
      split
      · exact (OffersOnly.trans (.of_writer (State.modCred_writer s _ _)) (.postIntake _ _)).next
      · exact (OffersOnly.postIntake s _).next
    · exact offers_same s
  · exact offers_same s

theorem execListReadEnd_offers (e : Epoch) (n : SlotId) (r : HostRead) : OffersAtMost s (execListReadEnd e n r s) := by
  unfold execListReadEnd
  split
  · split
    · exact offers_same s
    split
    · split
      · exact (OffersOnly.retireAborted s n _).next
      · exact (OffersOnly.completeFromIntake s n _ _ _).next
    split
    · exact offers_same s
    split
    · exact (OffersOnly.retireAborted s n _).next
    dsimp only
    split
    · exact (OffersOnly.completeFromIntake s n _ _ _).next
    · exact (OffersOnly.trans (.of_writer (State.setSlot_writer s n _)) (.place _ n)).next
  · exact offers_same s

/-! ### Coalescing, and registers without a part in the ring -/

theorem OffersOnly.cqSignal : OffersOnly s (cqSignal s) := ⟨rfl, rfl, id⟩

/-- The coalescing state has no part in the ring (R142). -/
theorem OffersOnly.coalesce (irqNow : Bool) : OffersOnly s (coalesce s irqNow) := by
  unfold Machine.coalesce
  split
  · exact .refl s
  · dsimp only
    split
    · exact ⟨rfl, rfl, id⟩
    · exact ⟨rfl, rfl, id⟩

theorem execCoalescingDelayExpiry_offers : OffersAtMost s (execCoalescingDelayExpiry s) := by
  unfold execCoalescingDelayExpiry
  split
  · exact offers_same s
  · exact (OffersOnly.cqSignal.trans (.of_writer (by simp))).next

theorem execEnable_offers (w : Bool) : OffersAtMost s (execEnable w s) := by
  unfold execEnable
  split <;> exact offers_of_writer (by simp)

theorem execSubmitWrite_offers (value : BitVec 32) : OffersAtMost s (execSubmitWrite value s) := by
  unfold execSubmitWrite
  dsimp only
  split <;> exact offers_of_writer (by simp)

end Offering

/-! ### Commands that move the ring or the transaction -/

/-- Wherever the command leads on, the Completion Writer is sound. -/
def LeadsToSoundWriter (r : Result) : Prop := ∀ t : State, r = .next t → t.writer.ringSound ∧ t.writer.queuesSound

theorem LeadsToSoundWriter.next {t : State} (hring : t.writer.ringSound) (hqueues : t.writer.queuesSound) :
    LeadsToSoundWriter (.next t) := by
  intro u hu
  obtain rfl : t = u := by simpa using hu
  exact ⟨hring, hqueues⟩

/-- A Completion Writer after a reset is sound. -/
theorem Writer.reset_sound : Writer.reset.ringSound ∧ Writer.reset.queuesSound :=
  ⟨⟨.inl ⟨rfl, rfl, rfl, rfl⟩, nofun⟩, Nat.zero_le _, List.nodup_nil⟩

section Commands

variable {s : State} (hring : s.writer.ringSound) (hqueues : s.writer.queuesSound)
include hring hqueues

/-- A command that at most offers candidates keeps it sound. -/
theorem OffersAtMost.leads {r : Result} (h : OffersAtMost s r) : LeadsToSoundWriter r := by
  intro t ht
  obtain ⟨hr, htxn, hq⟩ := h t ht
  refine ⟨?_, hq hqueues⟩
  unfold Writer.ringSound
  rw [hr, htxn]
  exact hring

theorem OffersOnly.leads {t : State} (h : OffersOnly s t) : LeadsToSoundWriter (.next t) := h.next.leads hring hqueues

/-- Entries are released; a transaction in hand keeps its free entry (R136). -/
theorem execCqHeadWrite_writerSound (value : BitVec 32) : LeadsToSoundWriter (execCqHeadWrite value s) := by
  obtain ⟨hsound, hfree⟩ := hring
  unfold execCqHeadWrite
  split
  · next r' hr =>
    obtain ⟨hsound', hsize, hle⟩ := hsound.release hr
    refine .next ⟨hsound', fun htxn => ?_⟩ hqueues
    have hlt := hfree htxn
    change r'.unreleased < r'.size
    omega
  · exact .next ⟨hsound, hfree⟩ hqueues

/-- A transaction begins with a free entry (R140). -/
theorem execCompletionTransactionStart_writerSound : LeadsToSoundWriter (execCompletionTransactionStart s) := by
  unfold execCompletionTransactionStart
  split
  · split
    · next hstart =>
      rw [Bool.and_eq_true, decide_eq_true_iff] at hstart
      split
      · exact .next ⟨hring.1, fun _ => hstart.2⟩ hqueues
      · exact .next ⟨hring.1, fun _ => hstart.2⟩ hqueues
    · exact .next hring hqueues
  · exact .next hring hqueues

omit hqueues in
/-- A transaction in hand may go on or end with the ring as it is. -/
theorem setTxn_ringSound (t : Option Transaction) (ht : t.isSome = true → s.writer.txn.isSome = true) :
    (s.setTxn t).writer.ringSound := ⟨hring.1, fun h => hring.2 (ht h)⟩

theorem leads_beginCompletion : LeadsToSoundWriter (.next (beginCompletion s)) := by
  unfold beginCompletion
  split
  · next htxn _ =>
    split
    · exact .next (setTxn_ringSound hring _ fun _ => by rw [htxn]; rfl) hqueues
    · exact .next hring hqueues
  · exact .next hring hqueues

theorem execResultRecordWriteEnd_writerSound (e : Epoch) (i : LaneId) (r : HostWrite) :
    LeadsToSoundWriter (execResultRecordWriteEnd e i r s) := by
  unfold execResultRecordWriteEnd
  split
  · next ws htxn =>
    split
    · have hgone : (s.setTxn (some (.results (ws.filter fun w => w.lane != i)))).writer.ringSound :=
        setTxn_ringSound hring _ fun _ => by rw [htxn]; rfl
      dsimp only
      split
      · exact (OffersOnly.of_writer (by simp)).leads hgone hqueues
      · exact leads_beginCompletion hgone hqueues
    · exact .next hring hqueues
  · exact .next hring hqueues

/-- The record in hand leaves the holding queue for its entry of the ring, which was free (R135, R140). -/
theorem recordGone_sound {h : HeldRecord} {rest : List HeldRecord} (hhold : s.writer.holding = h :: rest)
    (htxn : s.writer.txn.isSome = true) :
    (s.recordGone rest).writer.ringSound ∧ (s.recordGone rest).writer.queuesSound := by
  obtain ⟨hroom, hnodup⟩ := hqueues
  refine ⟨⟨hring.1.take (hring.2 htxn), nofun⟩, ?_, hnodup⟩
  rw [hhold, List.length_cons] at hroom
  exact (Nat.le_succ _).trans hroom

theorem execCompletionRecordWriteEnd_writerSound (e : Epoch) (r : HostWrite) :
    LeadsToSoundWriter (execCompletionRecordWriteEnd e r s) := by
  unfold execCompletionRecordWriteEnd
  split
  · next h rest htxn hhold =>
    split
    · obtain ⟨hgoneRing, hgoneQueues⟩ := recordGone_sound hring hqueues hhold (by rw [htxn]; rfl)
      have hfree : ∀ u : State, OffersOnly u (freeRecordSlot u h) := by
        intro u
        cases h with
        | job n => exact .freeSlot u n
        | intake c => exact .refl u
        | event i e => exact .refl u
      have hdone : completeRecord s h =
          coalesce (freeRecordSlot (promote (s.recordGone rest)) h) (recordIrq s h) := by
        unfold completeRecord State.recordGone
        rw [hhold]
        rfl
      rw [hdone]
      have hoffers := (OffersOnly.promote (s.recordGone rest)).trans ((hfree _).trans (.coalesce (recordIrq s h)))
      exact (hoffers.trans (.of_writer (by simp))).leads hgoneRing hgoneQueues
    · exact (OffersOnly.of_writer (by simp)).leads (setTxn_ringSound hring none nofun) hqueues
  · exact .next hring hqueues

omit hring in
/-- An accepted block's ring is empty, and no transaction is in hand (R135, R160). -/
theorem configAccepted_sound (c : ConfigBlock) :
    (configAccepted s c).writer.ringSound ∧ (configAccepted s c).writer.queuesSound := by
  have hkept : ∀ t r, (applyKept s.ctl.keptSubmit t r).writer = State.writer t := by
    intro t r
    unfold applyKept
    split <;> simp
  have hset : (configAccepted s c).writer = (configured s c).writer := by
    have hfold := foldl_keeps State.writer _ hkept allRings (configured s c)
    unfold configAccepted enterQuiescing
    dsimp only
    split <;> simp [hfold]
  have hempty : (configured s c).writer.ring.sound := by
    rcases Nat.eq_zero_or_pos c.cqSize with hzero | hpos
    · exact .inl ⟨hzero, rfl, rfl, rfl⟩
    · exact .inr ⟨hpos, hpos, Nat.zero_le _, (Nat.zero_mod _).symm⟩
  rw [hset]
  exact ⟨⟨hempty, nofun⟩, hqueues⟩

theorem execConfigReadEnd_writerSound (e : Epoch) (r : HostRead) : LeadsToSoundWriter (execConfigReadEnd e r s) := by
  unfold execConfigReadEnd
  split
  · split
    · exact (OffersOnly.of_writer (by simp)).leads hring hqueues
    next bytes =>
    split
    · exact .next hring hqueues
    split
    · obtain ⟨haccRing, haccQueues⟩ := configAccepted_sound hqueues (parseConfig bytes)
      exact (OffersOnly.of_writer (by simp)).leads haccRing haccQueues
    · exact leads_beginCompletion hring hqueues
  · exact .next hring hqueues

/-! ### Every command -/

/-- Every command keeps the Completion Writer sound. -/
theorem exec_writerSound (c : Instr) : LeadsToSoundWriter (exec c s) := by
  have offers : ∀ {r : Result}, OffersAtMost s r → LeadsToSoundWriter r := fun h => h.leads hring hqueues
  cases c with
  | powerOnReset => exact .next Writer.reset_sound.1 Writer.reset_sound.2
  | softReset => exact .next Writer.reset_sound.1 Writer.reset_sound.2
  | enable w => exact offers (execEnable_offers w)
  | halt => exact offers (offers_of_writer (by simp))
  | submitWrite v => exact offers (execSubmitWrite_offers v)
  | cqHeadWrite v => exact execCqHeadWrite_writerSound hring hqueues v
  | irqWrite v => exact offers (offers_of_writer rfl)
  | statusWrite v => exact offers (offers_of_writer rfl)
  | configAddrWrite half v => exact offers (offers_of_writer rfl)
  | registerWriteIgnored o b v => exact .next hring hqueues
  | configReadEnd e r => exact execConfigReadEnd_writerSound hring hqueues e r
  | drainComplete => exact offers (offers_of_writer (by simp))
  | intakeArbiterChoice => exact offers execIntakeArbiterChoice_offers
  | recordReadEnd e r => exact offers (execRecordReadEnd_offers e r)
  | listReadEnd e n r => exact offers (execListReadEnd_offers e n r)
  | loadCredentialReadEnd e r => exact offers (execLoadCredentialReadEnd_offers e r)
  | holdingQueueEntry => exact offers (OffersOnly.promote s).next
  | completionTransactionStart => exact execCompletionTransactionStart_writerSound hring hqueues
  | resultRecordWriteEnd e i r => exact execResultRecordWriteEnd_writerSound hring hqueues e i r
  | completionRecordWriteEnd e r => exact execCompletionRecordWriteEnd_writerSound hring hqueues e r
  | coalescingDelayExpiry => exact offers execCoalescingDelayExpiry_offers
  | stagingReadIssue => exact offers execStagingReadIssue_offers
  | stagingReadEnd e b r => exact offers (execStagingReadEnd_offers e b r)
  | chunkSend i => exact offers (execChunkSend_offers i)
  | readbackWriteEnd e i r => exact offers (execReadbackWriteEnd_offers e i r)
  | frameSent i => exact offers (execFrameSent_offers i)
  | responseTimeout i => exact offers (execResponseTimeout_offers i)
  | frameReceived i chars => exact offers (execFrameReceived_offers i chars)
  | frameSpoiled i chars bad => exact offers (execFrameSpoiled_offers i chars bad)
  | frameGapTimeout i => exact offers (execFrameGapTimeout_offers i)
  | trainingPatternSent i => exact offers (execTrainingPatternSent_offers i)
  | trainingCharacterReceived i char => exact offers (execTrainingCharacterReceived_offers i char)
  | trainingTimeout i => exact offers (execTrainingTimeout_offers i)
  | powerSettleExpiry i => exact offers (execPowerSettleExpiry_offers i)
  | checkWaitExpiry i => exact offers (execCheckWaitExpiry_offers i)
  | resetPulseExpiry i => exact offers (execResetPulseExpiry_offers i)
  | bootSettleExpiry i => exact offers (execBootSettleExpiry_offers i)
  | rateGapExpiry i => exact offers (execRateGapExpiry_offers i)
  | superviseTimerExpiry => exact offers execSuperviseTimerExpiry_offers
  | conversionStart => exact offers execConversionStart_offers
  | conversionEnd mv => exact offers (execConversionEnd_offers mv)
  | overcurrentTrip i => exact offers (execOvercurrentTrip_offers i)
  | frameCharacterReceived i char => exact offers (execFrameCharacterReceived_offers i char)

end Commands

/-- Settles O59: a step is the front command on the state with the rest of the queue, which has the same Completion
Writer. -/
theorem everyStepKeepsTheWriterSound : Obligations.EveryStepKeepsTheWriterSound := by
  rintro s t ⟨hring, hqueues⟩ hstep
  unfold step at hstep
  split at hstep
  · exact LeadsToSoundWriter.next hring hqueues t hstep
  · next rest _ => exact exec_writerSound (s := { s with pending := rest }) hring hqueues _ t hstep

end Sys2Proof.Machine
end

section
/-! SUPPORT. What an ABORT finds, and how the end of one lane's part leaves the job: retired with its last outcome (R56, R73,
R145, R146). -/

namespace Sys2Proof.Machine

/-! ### The lookup -/

section Lookup

variable {s : State} {r : RingId} {tag : BitVec 16} {n : SlotId} {k : Job}

/-- The slot that is found holds a job of the ring that carries the tag (R145). -/
theorem findTag_holds (h : findTag s r tag = some n) : ∃ k : Job, s.slot n = some k ∧ k.ring = r ∧ k.spec.tag = tag := by
  have hfound := List.find?_some h
  split at hfound
  · cases hfound
  · next k hk => exact ⟨k, hk, by simpa using hfound⟩

/-- The only job of the ring that carries the tag is found (R145). -/
theorem findTag_unique (hk : s.slot n = some k) (hr : k.ring = r) (ht : k.spec.tag = tag)
    (honly : ∀ (m : SlotId) (x : Job), s.slot m = some x → x.ring = r → x.spec.tag = tag → m = n) :
    findTag s r tag = some n := by
  cases hfind : findTag s r tag with
  | none => exact absurd (List.find?_eq_none.mp hfind n (mem_allSlots n)) (by simp [hk, hr, ht])
  | some m =>
    obtain ⟨x, hx, hxr, hxt⟩ := findTag_holds hfind
    rw [honly m x hx hxr hxt]

/-- The lookup leads to no job that can still be aborted: NOT_FOUND (R145). -/
theorem abortLookup_notFound (own : IntakeCompletion) (h : ∀ (n : SlotId) (k : Job), s.slot n = some k → k.ring = r →
    k.spec.tag = tag → k.abortable = false) : abortLookup s own r tag = postIntake s { own with status := .notFound } := by
  unfold abortLookup
  split
  · rfl
  next n hfind =>
  obtain ⟨k, hk, hr, ht⟩ := findTag_holds hfind
  simp [hk, h n k hk hr ht]

/-- The job found can still be aborted: the ABORT is DONE, and the job is dealt with after that (R145, R146). -/
theorem abortLookup_done (own : IntakeCompletion) (hfind : findTag s r tag = some n) (hk : s.slot n = some k)
    (ha : k.abortable = true) : abortLookup s own r tag = abortJob (postIntake s { own with status := .done }) n k := by
  unfold abortLookup
  rw [hfind]
  simp [hk, ha]

/-- With the holding queue open a completion at intake enters it (R133, R138). -/
theorem postIntake_of_open (h : s.holdingOpen) (c : IntakeCompletion) : postIntake s c = s.withCompletion c := by
  have ⟨_, hempty, _⟩ := h
  have hwait : .engine ∉ s.writer.waitList := by
    rw [hempty]
    exact List.not_mem_nil
  rcases postIntake_posts hwait c with ⟨-, hpost⟩ | ⟨hfull, -⟩
  · exact hpost
  · exact absurd h hfull

/-- An ABORT is carried out at once (R145). -/
theorem State.recordTaken.exec_abort {q : RingId} {bytes : List Byte} {j : JobSpec} (h : s.recordTaken q bytes j)
    (hp : j.params = .abort r tag) : exec (.recordReadEnd .live (.good bytes)) s =
      .next (abortLookup s (recordCompletion q bytes .done .none) r tag) := by
  rw [h.exec_eq, takeRecord, h.validate_eq]
  simp [h.tag_free, hp]

end Lookup

/-! ### The job retires with its last outcome -/

/-- Every lane of the set has its outcome (R56). -/
theorem Job.allDone_iff (j : Job) :
    j.allDone = true ↔ ∀ i : LaneId, inSet j.spec.lanes i = true → j.results[i.val].isSome = true := by
  unfold Job.allDone
  rw [List.all_eq_true]
  refine forall_congr' fun i => ?_
  rw [imp_iff_right (show i ∈ allLanes from List.mem_finRange i)]
  cases inSet j.spec.lanes i <;> simp

/-- The job once one more outcome has been recorded: RETIRING when it was the last (R55, R56, R73). -/
def Job.retiredIfDone (j : Job) : Job :=
  if j.allDone then { j with state := .retiring, final := some j.fixStatus } else j

/-- The first outcome of a lane is recorded beside those of the others (R56). -/
theorem Job.record_results {j : Job} {i : LaneId} (h : j.results[i.val] = none) (r : LaneResult) (m : LaneId) :
    (j.record i r).results[m.val] = if m = i then some r else j.results[m.val] := by
  simp [Job.record, h, Vector.getElem_set, Fin.ext_iff, eq_comm]

@[simp] theorem Job.record_spec (j : Job) (i : LaneId) (r : LaneResult) : (j.record i r).spec = j.spec := by
  unfold Job.record
  split <;> rfl

@[simp] theorem Job.record_abortMark (j : Job) (i : LaneId) (r : LaneResult) : (j.record i r).abortMark = j.abortMark := by
  unfold Job.record
  split <;> rfl

@[simp] theorem Job.record_state (j : Job) (i : LaneId) (r : LaneResult) : (j.record i r).state = j.state := by
  unfold Job.record
  split <;> rfl

@[simp] theorem Job.retiredIfDone_spec (j : Job) : j.retiredIfDone.spec = j.spec := by
  unfold Job.retiredIfDone
  split <;> rfl

@[simp] theorem Job.retiredIfDone_abortMark (j : Job) : j.retiredIfDone.abortMark = j.abortMark := by
  unfold Job.retiredIfDone
  split <;> rfl

@[simp] theorem Job.retiredIfDone_results (j : Job) : j.retiredIfDone.results = j.results := by
  unfold Job.retiredIfDone
  split <;> rfl

/-- Retiring leaves the question of whether every lane has its outcome. -/
@[simp] theorem Job.retiredIfDone_allDone (j : Job) : j.retiredIfDone.allDone = j.allDone := by
  simp [Job.allDone]

theorem Job.retiredIfDone_of_done {j : Job} (h : j.allDone = true) :
    j.retiredIfDone = { j with state := .retiring, final := some j.fixStatus } := if_pos h

theorem Job.retiredIfDone_of_open {j : Job} (h : j.allDone = false) : j.retiredIfDone = j :=
  if_neg (by rw [h]; exact Bool.false_ne_true)

section Ends

variable {s : State} {i : LaneId} {n : SlotId} {j : Job}

/-- The slots once a job has been looked at for its retirement (R55, R56). -/
theorem retireIfDone_slot (hj : s.slot n = some j) (hs : j.state = .queued ∨ j.state = .active) (m : SlotId) :
    (retireIfDone s n).slot m = if m = n then some j.retiredIfDone else s.slot m := by
  have hstate : (decide (j.state = .queued) || decide (j.state = .active)) = true := by simpa using hs
  unfold retireIfDone Job.retiredIfDone
  rw [hj]
  dsimp only
  rw [hstate, Bool.true_and]
  split
  · rw [State.slot_congr (offerIfClear_frame _ n).2.2.1, State.slot_setSlot]
    simp only [eq_comm]
  · split
    · next h => rw [h, hj]
    · rfl

/-- The slots once a lane's part of a job has ended: the outcome is recorded, and the job retires if it was the last. -/
theorem closeJob_slot (hj : s.slot n = some j) (hs : j.state = .queued ∨ j.state = .active) (r : LaneResult) (m : SlotId) :
    (closeJob s i n r).slot m = if m = n then some (j.record i r).retiredIfDone else s.slot m := by
  unfold closeJob
  dsimp only
  rw [retireIfDone_slot (j := j.record i r) (by simp [State.modSlot_slot, hj]) (by rwa [Job.record_state])]
  split
  · rfl
  · next h => simp [State.modSlot_slot, h]

/-- The slots once a job has left the queue of a lane that never took it up (R148, R150). -/
theorem removeJob_slot (hj : s.slot n = some j) (hs : j.state = .queued ∨ j.state = .active) (v : Verdict) (m : SlotId) :
    (removeJob s i n j v).slot m =
      if m = n then some (j.record i ((s.lane i).result j.spec.params false v)).retiredIfDone else s.slot m := by
  unfold removeJob
  dsimp only
  rw [retireIfDone_slot (j := j.record i ((s.lane i).result j.spec.params false v)) (by simp [State.modSlot_slot, hj])
    (by rwa [Job.record_state])]
  split
  · rfl
  · next h => simp [State.modSlot_slot, h]

/-- A job that a lane never took up leaves the lane as it stood, but for its queue (R148, R150). -/
theorem removeJob_lane (v : Verdict) :
    (removeJob s i n j v).lane i = { s.lane i with queue := (s.lane i).queue.filter (· != n) } := by
  unfold removeJob
  dsimp only
  rw [State.lane_congr (retireIfDone_frame _ n).2.2.1 i, State.unblockLane_lane, State.lane_modLane_self,
    State.lane_congr (State.modSlot_frame s n _).2.2.1 i]

end Ends

/-! ### Records that stand before those that are offered -/

/-- An offer leaves the records that stand in the holding queue where they are (R138). -/
theorem holding_kept_by_offerJob (s : State) (n : SlotId) : s.writer.holding <+: (offerJob s n).writer.holding := by
  rcases offerJob_cases s n with ⟨h, -⟩ | ⟨-, h⟩ | ⟨h, -⟩
  · rw [h]
    exact ⟨_, rfl⟩
  · rw [h]
  · rw [h]

theorem holding_kept_by_offerIfClear (s : State) (n : SlotId) :
    s.writer.holding <+: (offerIfClear s n).writer.holding := by
  unfold offerIfClear
  split
  · exact ⟨[], List.append_nil _⟩
  split
  · exact holding_kept_by_offerJob s n
  · exact ⟨[], List.append_nil _⟩

theorem holding_kept_by_retireIfDone {s t : State} (h : t.writer = s.writer) (n : SlotId) :
    s.writer.holding <+: (retireIfDone t n).writer.holding := by
  rw [← h]
  unfold retireIfDone
  split
  · exact ⟨[], List.append_nil _⟩
  next j _ =>
  split
  · exact holding_kept_by_offerIfClear (t.setSlot n (some { j with state := .retiring, final := some j.fixStatus })) n
  · exact ⟨[], List.append_nil _⟩

theorem holding_kept_by_closeJob (s : State) (i : LaneId) (n : SlotId) (r : LaneResult) :
    s.writer.holding <+: (closeJob s i n r).writer.holding :=
  holding_kept_by_retireIfDone (by simp) n

theorem holding_kept_by_removeJob (s : State) (i : LaneId) (n : SlotId) (j : Job) (v : Verdict) :
    s.writer.holding <+: (removeJob s i n j v).writer.holding :=
  holding_kept_by_retireIfDone (by simp) n

end Sys2Proof.Machine
end

section
/-! SUPPORT. What an abort leaves of each lane of the job's set and of the job itself, once all of them have been dealt with
(R73, R75, R148, R150, R151). -/

namespace Sys2Proof.Machine

/-! ### One lane -/

/-- What an abort of the job `k` of slot `n` records for lane `i`, which stands as `l`: nothing where an outcome is recorded
already or the abort is pending, and else ABORTED, on a lane that has taken the job up or not (R148, R150, R151). -/
def Lane.abortRecords (l : Lane) (i : LaneId) (n : SlotId) (k : Job) : Option LaneResult :=
  if k.results[i.val].isSome then none
  else if l.queue.head? ≠ some n then some (l.result k.spec.params false (Verdict.plain .aborted))
  else if l.outstanding.isSome then none
  else some (l.result k.spec.params true (Verdict.plain .aborted))

/-- Lane `i`, which stood as `l`, once an abort of the job `k` of slot `n` has dealt with it: as it stood where nothing is
recorded; else it has lost the job, and the step in hand if it had taken the job up (R148, R150). -/
def Lane.abortLeaves (l : Lane) (i : LaneId) (n : SlotId) (k : Job) : Lane :=
  if l.abortRecords i n k = none then l
  else { l with queue := l.queue.filter (· != n), step := if l.queue.head? = some n then .none else l.step }

/-- No other job waits on lane `i` behind the job `k` of slot `n` that the lane has in hand, and if `k` is an ATTACH the lane
has its identity record, so that the job's end is the end of all that the lane does. -/
def State.endsAlone (s : State) (n : SlotId) (k : Job) (i : LaneId) : Prop :=
  k.results[i.val] = none → (s.lane i).queue.head? = some n →
    (s.lane i).queue = [n] ∧ ¬ (k.spec.params.kind = .attach ∧ (s.lane i).identity = none)

/-- An abort that has its effect on a lane records ABORTED (R148, R150). -/
theorem Lane.abortRecords_outcome {l : Lane} {i : LaneId} {n : SlotId} {k : Job} {r : LaneResult}
    (h : l.abortRecords i n k = some r) : r.outcome = .aborted := by
  unfold Lane.abortRecords at h
  split at h
  · cases h
  split at h
  · obtain rfl := Option.some.inj h
    rfl
  split at h
  · cases h
  · obtain rfl := Option.some.inj h
    rfl

section Records

variable {l : Lane} {i : LaneId} {n : SlotId} {k : Job}

theorem Lane.abortRecords_recorded (h : k.results[i.val] ≠ none) : l.abortRecords i n k = none :=
  if_pos (Option.isSome_iff_ne_none.mpr h)

theorem Lane.open_of_abortRecords {r : LaneResult} (h : l.abortRecords i n k = some r) : k.results[i.val] = none := by
  by_contra hr
  rw [abortRecords_recorded hr] at h
  cases h

/-- A lane with another job before it, or none, has not taken the job up (R75, R148, R150). -/
theorem Lane.abortRecords_behind (h : k.results[i.val] = none) (hq : l.queue.head? ≠ some n) :
    l.abortRecords i n k = some (l.result k.spec.params false (Verdict.plain .aborted)) := by
  simp [abortRecords, h, hq]

theorem Lane.abortRecords_pending (hq : l.queue.head? = some n) (ho : l.outstanding.isSome = true) :
    l.abortRecords i n k = none := by
  simp [abortRecords, hq, ho]

theorem Lane.abortRecords_inHand (h : k.results[i.val] = none) (hq : l.queue.head? = some n) (ho : l.outstanding = none) :
    l.abortRecords i n k = some (l.result k.spec.params true (Verdict.plain .aborted)) := by
  simp [abortRecords, h, hq, ho]

/-- Nothing is recorded for a lane whose outcome is open exactly when the abort is pending there (R151). -/
theorem Lane.abortRecords_eq_none_iff (h : k.results[i.val] = none) :
    l.abortRecords i n k = none ↔ l.queue.head? = some n ∧ l.outstanding.isSome = true := by
  by_cases hq : l.queue.head? = some n
  · by_cases ho : l.outstanding.isSome = true
    · simp [abortRecords_pending, hq, ho]
    · simp [abortRecords_inHand h hq (by simpa using ho), ho]
  · simp [abortRecords_behind h hq, hq]

theorem Lane.abortLeaves_unrecorded (h : l.abortRecords i n k = none) : l.abortLeaves i n k = l := if_pos h

theorem Lane.abortLeaves_behind (h : k.results[i.val] = none) (hq : l.queue.head? ≠ some n) :
    l.abortLeaves i n k = { l with queue := l.queue.filter (· != n) } := by
  simp [abortLeaves, abortRecords_behind h hq, hq]

theorem Lane.abortLeaves_inHand (h : k.results[i.val] = none) (hq : l.queue = [n]) (ho : l.outstanding = none) :
    l.abortLeaves i n k = { l with queue := [], step := .none } := by
  simp [abortLeaves, abortRecords_inHand h (congrArg List.head? hq) ho, hq]

/-- What is recorded, and how the lane is left, goes by the job's outcome on the lane and by its parameters alone. -/
theorem Lane.abortRecords_congr {b : Job} (hs : b.spec = k.spec) (hr : b.results[i.val] = k.results[i.val]) :
    l.abortRecords i n b = l.abortRecords i n k ∧ l.abortLeaves i n b = l.abortLeaves i n k := by
  have h : l.abortRecords i n b = l.abortRecords i n k := by simp [abortRecords, hs, hr]
  exact ⟨h, by simp [abortLeaves, h]⟩

end Records

/-- From `s` to `t` the only change to the job `k` of slot `n`, to the lanes and to the rest is the end of lane `i`'s part of
it with the result `r`, which leaves the lane as `l`. -/
structure EndsPart (s t : State) (i : LaneId) (n : SlotId) (k : Job) (l : Lane) (r : LaneResult) : Prop where
  slots : ∀ m : SlotId, t.slot m = if m = n then some (k.record i r).retiredIfDone else s.slot m
  lanes : ∀ m : LaneId, t.lane m = if m = i then l else s.lane m
  holding : s.writer.holding <+: t.writer.holding
  pool : (s.lane i).queue.head? ≠ some n → t.pool = s.pool
  ctl : t.ctl = s.ctl
  creds : t.creds = s.creds
  supply : t.supply = s.supply

section OneLane

variable {s : State} {i : LaneId} {n : SlotId} {k : Job}

/-- A lane that never took up the job loses it (R148, R150). -/
theorem removeJob_endsPart (hk : s.slot n = some k) (hs : k.state = .queued ∨ k.state = .active) (v : Verdict) :
    EndsPart s (removeJob s i n k v) i n k { s.lane i with queue := (s.lane i).queue.filter (· != n) }
      ((s.lane i).result k.spec.params false v) where
  slots := removeJob_slot hk hs v
  lanes m := by
    split
    · next h => rw [h, removeJob_lane]
    · next h => exact (removeJob_local s i n k v).2.2 m h
  holding := holding_kept_by_removeJob s i n k v
  pool _ := removeJob_pool s i n k v
  ctl := (removeJob_local s i n k v).1
  creds := by simp [removeJob]
  supply := by simp [removeJob]

/-- A lane whose whole queue is the job ends its part of it and has no more to do (R150). -/
theorem finishLane_endsPart (hk : s.slot n = some k) (hs : k.state = .queued ∨ k.state = .active)
    (hq : (s.lane i).queue = [n]) (v : Verdict) :
    EndsPart s (finishLane s i v) i n k { s.lane i with queue := [], step := .none }
      ((s.lane i).result k.spec.params true v) := by
  have hends : finishLane s i v = closeJob s i n ((s.lane i).result k.spec.params true v) := resolveStep_onlyJob hq hk v
  have hlocal := closeJob_local s i n ((s.lane i).result k.spec.params true v)
  rw [hends]
  exact {
    slots := closeJob_slot hk hs _
    lanes := fun m => by
      split
      · next h => rw [h, closeJob_lane, hq]; simp
      · next h => exact hlocal.2.2 m h
    holding := holding_kept_by_closeJob s i n _
    pool := fun h => absurd (congrArg List.head? hq) h
    ctl := hlocal.1
    creds := closeJob_creds s i n _
    supply := (closeJob_engine_supply s i n _).2 }

/-- An outcome that is recorded already stays, and so does the lane (R56, R150). -/
theorem abortLane_recorded (hk : s.slot n = some k) (hr : k.results[i.val] ≠ none) : abortLane n s i = s := by
  simp [abortLane, hk, Option.isSome_iff_ne_none.mpr hr]

/-- A lane with another job before it loses the job (R148, R150). -/
theorem abortLane_behind (hk : s.slot n = some k) (hr : k.results[i.val] = none) (hq : (s.lane i).queue.head? ≠ some n) :
    abortLane n s i = removeJob s i n k (Verdict.plain .aborted) := by
  simp [abortLane, hk, hr, hq]

/-- An ATTACH is aborted before identity (R152). -/
theorem abortLane_early (hk : s.slot n = some k) (hr : k.results[i.val] = none) (hq : (s.lane i).queue.head? = some n)
    (hearly : k.spec.params.kind = .attach ∧ (s.lane i).identity = none) :
    abortLane n s i = abortBeforeIdentity s i := by
  simp [abortLane, hk, hr, hq, hearly]

/-- With a request outstanding the abort is pending (R151). -/
theorem abortLane_pending (hk : s.slot n = some k) (hr : k.results[i.val] = none) (hq : (s.lane i).queue.head? = some n)
    (hearly : ¬ (k.spec.params.kind = .attach ∧ (s.lane i).identity = none))
    (ho : (s.lane i).outstanding.isSome = true) : abortLane n s i = s := by
  simp [abortLane, hk, hr, hq, hearly, ho]

/-- With no request outstanding the lane's part of the job ends at once (R150). -/
theorem abortLane_inHand (hk : s.slot n = some k) (hr : k.results[i.val] = none) (hq : (s.lane i).queue.head? = some n)
    (hearly : ¬ (k.spec.params.kind = .attach ∧ (s.lane i).identity = none)) (ho : (s.lane i).outstanding = none) :
    abortLane n s i = finishLane s i (Verdict.plain .aborted) := by
  simp [abortLane, hk, hr, hq, hearly, ho]

/-- Where an abort records nothing it leaves everything as it is (R150, R151). -/
theorem abortLane_records_none (hk : s.slot n = some k) (halone : s.endsAlone n k i)
    (h : (s.lane i).abortRecords i n k = none) : abortLane n s i = s := by
  by_cases hr : k.results[i.val] = none
  · obtain ⟨hq, ho⟩ := (Lane.abortRecords_eq_none_iff hr).mp h
    exact abortLane_pending hk hr hq (halone hr hq).2 ho
  · exact abortLane_recorded hk hr

/-- Where an abort records an outcome the lane's part of the job ends with it (R148, R150). -/
theorem abortLane_records_some (hk : s.slot n = some k) (hs : k.state = .queued ∨ k.state = .active)
    (halone : s.endsAlone n k i) {r : LaneResult} (h : (s.lane i).abortRecords i n k = some r) :
    EndsPart s (abortLane n s i) i n k ((s.lane i).abortLeaves i n k) r := by
  have hr := Lane.open_of_abortRecords h
  by_cases hq : (s.lane i).queue.head? = some n
  · obtain ⟨hqueue, hearly⟩ := halone hr hq
    have ho : (s.lane i).outstanding = none := by
      by_contra ho
      rw [Lane.abortRecords_pending hq (Option.isSome_iff_ne_none.mpr ho)] at h
      cases h
    obtain rfl := Option.some.inj ((Lane.abortRecords_inHand hr hq ho).symm.trans h)
    rw [abortLane_inHand hk hr hq hearly ho, Lane.abortLeaves_inHand hr hqueue ho]
    exact finishLane_endsPart hk hs hqueue _
  · obtain rfl := Option.some.inj ((Lane.abortRecords_behind hr hq).symm.trans h)
    rw [abortLane_behind hk hr hq, Lane.abortLeaves_behind hr hq]
    exact removeJob_endsPart hk hs _

end OneLane

/-! ### The job -/

/-- From `k` to `b` outcomes have been recorded for lanes of the job's set that had none, and the job has retired if these
were the last (R55, R56, R73). -/
structure Job.SettlesTo (k b : Job) : Prop where
  spec : b.spec = k.spec
  mark : b.abortMark = k.abortMark
  kept : k.allDone = true → b = k
  state : b.allDone = false → b.state = k.state
  retired : k.allDone = false → b.allDone = true → b.state = .retiring ∧ b.final = some b.fixStatus

theorem Job.SettlesTo.refl (k : Job) : k.SettlesTo k :=
  ⟨rfl, rfl, fun _ => rfl, fun _ => rfl, fun h h' => absurd (h.symm.trans h') Bool.false_ne_true⟩

theorem Job.SettlesTo.trans {k b c : Job} (h : k.SettlesTo b) (h' : b.SettlesTo c) : k.SettlesTo c where
  spec := h'.spec.trans h.spec
  mark := h'.mark.trans h.mark
  kept hk := by
    have hb := h.kept hk
    rw [h'.kept (hb ▸ hk), hb]
  state hc := by
    have hb : b.allDone = false := by
      by_contra hb
      rw [h'.kept (by simpa using hb)] at hc
      exact hb hc
    rw [h'.state hc, h.state hb]
  retired hk hc := by
    cases hb : b.allDone with
    | true =>
      rw [h'.kept hb]
      exact h.retired hk hb
    | false => exact h'.retired hb hc

/-- One more outcome, recorded for a lane of the set (R56). -/
theorem Job.settlesTo_record {k : Job} {i : LaneId} (hi : inSet k.spec.lanes i = true) (hr : k.results[i.val] = none)
    (r : LaneResult) : k.SettlesTo (k.record i r).retiredIfDone := by
  refine ⟨by simp, by simp, fun hk => ?_, fun hb => ?_, fun _ hb => ?_⟩
  · exact absurd (k.allDone_iff.mp hk i hi) (by simp [hr])
  · rw [Job.retiredIfDone_allDone] at hb
    rw [Job.retiredIfDone_of_open hb, Job.record_state]
  · rw [Job.retiredIfDone_allDone] at hb
    rw [Job.retiredIfDone_of_done hb]
    exact ⟨rfl, rfl⟩

/-! ### All lanes of the set -/

/-- From `s`, in which slot `n` holds the job `k`, to `t`, in which it holds `b`, an abort has dealt with the lanes of `l`: the
outcomes, the lanes, and what else has changed (R148, R150). -/
structure AbortReaches (s t : State) (n : SlotId) (k b : Job) (l : List LaneId) : Prop where
  slot : t.slot n = some b
  others : ∀ m : SlotId, m ≠ n → t.slot m = s.slot m
  settles : k.SettlesTo b
  results : ∀ i : LaneId, b.results[i.val] =
    if i ∈ l then ((s.lane i).abortRecords i n k).or k.results[i.val] else k.results[i.val]
  lanes : ∀ i : LaneId, t.lane i = if i ∈ l then (s.lane i).abortLeaves i n k else s.lane i
  holding : s.writer.holding <+: t.writer.holding
  pool : (∀ i ∈ l, (s.lane i).queue.head? ≠ some n) → t.pool = s.pool
  ctl : t.ctl = s.ctl
  creds : t.creds = s.creds
  supply : t.supply = s.supply

section AllLanes

variable {s : State} {n : SlotId} {k : Job}

/-- With no lane to deal with nothing changes. -/
theorem AbortReaches.nil (hk : s.slot n = some k) : AbortReaches s s n k k [] := by
  constructor
  case slot => exact hk
  case settles => exact .refl k
  case holding => exact ⟨[], List.append_nil _⟩
  all_goals simp

/-- One lane of the set is dealt with. -/
theorem abortLane_reaches {i : LaneId} (hk : s.slot n = some k)
    (hs : k.allDone = false → k.state = .queued ∨ k.state = .active) (hi : inSet k.spec.lanes i = true)
    (halone : s.endsAlone n k i) : ∃ b : Job, AbortReaches s (abortLane n s i) n k b [i] := by
  cases hrec : (s.lane i).abortRecords i n k with
  | none =>
    rw [abortLane_records_none hk halone hrec]
    refine ⟨k, { AbortReaches.nil hk with results := fun m => ?_, lanes := fun m => ?_, pool := fun _ => rfl }⟩
    · split
      · next hm => obtain rfl := List.mem_singleton.mp hm; rw [hrec, Option.none_or]
      · rfl
    · split
      · next hm => obtain rfl := List.mem_singleton.mp hm; rw [Lane.abortLeaves_unrecorded hrec]
      · rfl
  | some r =>
    have hr := Lane.open_of_abortRecords hrec
    have hopen : k.allDone = false := by
      refine Bool.eq_false_iff.mpr fun hdone => ?_
      simpa [hr] using k.allDone_iff.mp hdone i hi
    have hends := abortLane_records_some hk (hs hopen) halone hrec
    refine ⟨(k.record i r).retiredIfDone, ?_⟩
    constructor
    case slot => rw [hends.slots, if_pos rfl]
    case others => exact fun m hm => by rw [hends.slots, if_neg hm]
    case settles => exact Job.settlesTo_record hi hr r
    case results =>
      intro m
      rw [Job.retiredIfDone_results, Job.record_results hr]
      simp only [List.mem_singleton]
      refine if_ctx_congr Iff.rfl (fun hm => ?_) fun _ => rfl
      rw [hm, hrec, Option.some_or]
    case lanes =>
      intro m
      rw [hends.lanes]
      simp only [List.mem_singleton]
      refine if_ctx_congr Iff.rfl (fun hm => ?_) fun _ => rfl
      rw [hm]
    case pool => exact fun h => hends.pool (h i (List.mem_singleton.mpr rfl))
    case holding => exact hends.holding
    case ctl => exact hends.ctl
    case creds => exact hends.creds
    case supply => exact hends.supply

/-- The lanes of one list are dealt with and then those of another, none twice. -/
theorem AbortReaches.trans {t u : State} {b c : Job} {l l' : List LaneId} (h : AbortReaches s t n k b l)
    (h' : AbortReaches t u n b c l') (hdisj : ∀ i ∈ l, i ∉ l') : AbortReaches s u n k c (l ++ l') := by
  have hsame : ∀ i : LaneId, i ∉ l → t.lane i = s.lane i ∧ b.results[i.val] = k.results[i.val] := fun i hi =>
    ⟨by rw [h.lanes, if_neg hi], by rw [h.results, if_neg hi]⟩
  constructor
  case slot => exact h'.slot
  case others => exact fun m hm => (h'.others m hm).trans (h.others m hm)
  case settles => exact h.settles.trans h'.settles
  case results =>
    intro i
    by_cases hi : i ∈ l
    · rw [h'.results, if_neg (hdisj i hi), h.results, if_pos hi, if_pos (List.mem_append_left l' hi)]
    · obtain ⟨hlane, hres⟩ := hsame i hi
      rw [h'.results, hlane, (Lane.abortRecords_congr h.settles.spec hres).1, hres]
      simp [hi]
  case lanes =>
    intro i
    by_cases hi : i ∈ l
    · rw [h'.lanes, if_neg (hdisj i hi), h.lanes, if_pos hi, if_pos (List.mem_append_left l' hi)]
    · obtain ⟨hlane, hres⟩ := hsame i hi
      rw [h'.lanes, hlane, (Lane.abortRecords_congr h.settles.spec hres).2]
      simp [hi]
  case holding => exact h.holding.trans h'.holding
  case pool =>
    intro hheads
    refine (h'.pool fun i hi => ?_).trans (h.pool fun i hi => hheads i (List.mem_append_left l' hi))
    rw [(hsame i fun hl => hdisj i hl hi).1]
    exact hheads i (List.mem_append_right l hi)
  case ctl => exact h'.ctl.trans h.ctl
  case creds => exact h'.creds.trans h.creds
  case supply => exact h'.supply.trans h.supply

/-- Lanes of the set are dealt with one after the other (R150; log 7). -/
theorem abortLanes_reach {l : List LaneId} (hl : l.Nodup) (hk : s.slot n = some k)
    (hs : k.allDone = false → k.state = .queued ∨ k.state = .active) (hset : ∀ i ∈ l, inSet k.spec.lanes i = true)
    (halone : ∀ i ∈ l, s.endsAlone n k i) : ∃ b : Job, AbortReaches s (l.foldl (abortLane n) s) n k b l := by
  induction l generalizing s k with
  | nil => exact ⟨k, .nil hk⟩
  | cons i l ih =>
    obtain ⟨hnot, hl⟩ := List.nodup_cons.mp hl
    obtain ⟨hi, hset⟩ := List.forall_mem_cons.mp hset
    obtain ⟨halonei, halone⟩ := List.forall_mem_cons.mp halone
    obtain ⟨b, hb⟩ := abortLane_reaches hk hs hi halonei
    have hspec := hb.settles.spec
    have hs' : b.allDone = false → b.state = .queued ∨ b.state = .active := by
      intro hopen
      rw [hb.settles.state hopen]
      refine hs (Bool.eq_false_iff.mpr fun hdone => ?_)
      rw [hb.settles.kept hdone, hdone] at hopen
      cases hopen
    have halone' : ∀ m ∈ l, (abortLane n s i).endsAlone n b m := by
      intro m hm
      have hne : m ∉ [i] := fun h => hnot (List.mem_singleton.mp h ▸ hm)
      unfold State.endsAlone
      rw [hb.lanes, if_neg hne, hb.results, if_neg hne, hspec]
      exact halone m hm
    obtain ⟨c, hc⟩ := ih hl hb.slot hs' (fun m hm => hspec.symm ▸ hset m hm) halone'
    refine ⟨c, hb.trans hc fun m hm => ?_⟩
    rw [List.mem_singleton.mp hm]
    exact hnot

/-- Every lane of the set is dealt with (R148, R150). -/
theorem abortAll_reaches (hk : s.slot n = some k) (hs : k.state = .queued ∨ k.state = .active)
    (halone : ∀ i : LaneId, inSet k.spec.lanes i = true → s.endsAlone n k i) :
    ∃ b : Job, AbortReaches s ((lanesOf k.spec.lanes).foldl (abortLane n) s) n k b (lanesOf k.spec.lanes) :=
  abortLanes_reach (nodup_lanesOf _) hk (fun _ => hs) (fun i hi => (mem_lanesOf _ i).mp hi)
    fun i hi => halone i ((mem_lanesOf _ i).mp hi)

end AllLanes

end Sys2Proof.Machine
end

section
/-! CERTIFICATES. The abort lookup and its effect on the job that it finds, on one lane and on every lane of a set (R26, R69,
R73, R75, R145 to R152). -/

namespace Sys2Proof.Machine

/-! ### What is found is dealt with -/

/-- The job with its abort mark set (R147, R150). -/
def Job.withAbortMark (k : Job) : Job := { k with abortMark := true }

section Found

variable {s : State} {n : SlotId} {k : Job}

theorem abortJob_intake (h : k.state = .intake) : abortJob s n k = s.setSlot n (some k.withAbortMark) := by
  simp [abortJob, h, Job.withAbortMark]

theorem abortJob_waiting (h : k.state = .waiting) : abortJob s n k = retireBarrier s n .aborted := by
  unfold abortJob
  rw [h]

theorem abortJob_queued (h : k.state = .queued) : abortJob s n k = (lanesOf k.spec.lanes).foldl (abortLane n) s := by
  unfold abortJob
  rw [h]

theorem abortJob_active (h : k.state = .active) :
    abortJob s n k = (lanesOf k.spec.lanes).foldl (abortLane n) (s.setSlot n (some k.withAbortMark)) := by
  simp [abortJob, h, Job.withAbortMark]

/-- The ABORT's completion is in the holding queue, and the only job that it names is dealt with (R145, R146). -/
theorem State.recordTaken.exec_abort_found {q r : RingId} {tag : BitVec 16} {bytes : List Byte} {j : JobSpec}
    (h : s.recordTaken q bytes j) (hp : j.params = .abort r tag) (hopen : s.holdingOpen) (hk : s.slot n = some k)
    (hr : k.ring = r) (ht : k.spec.tag = tag)
    (honly : ∀ (m : SlotId) (x : Job), s.slot m = some x → x.ring = r → x.spec.tag = tag → m = n)
    (ha : k.abortable = true) : exec (.recordReadEnd .live (.good bytes)) s =
      .next (abortJob (s.withCompletion (recordCompletion q bytes .done .none)) n k) := by
  rw [h.exec_abort hp, abortLookup_done _ (findTag_unique hk hr ht honly) hk ha, postIntake_of_open hopen]
  rfl

end Found

/-! ### The job once all lanes of its set have been dealt with -/

/-- The result of a job's lane is read from its slot. -/
theorem State.resultOf_of_slot {t : State} {n : SlotId} {b : Job} (h : t.slot n = some b) (i : LaneId) :
    t.resultOf n i = b.results[i.val] := by
  simp [State.resultOf, h]

theorem State.outcomeOf_of_slot {t : State} {n : SlotId} {b : Job} (h : t.slot n = some b) (i : LaneId) :
    t.outcomeOf n i = b.outcome i := by
  simp [State.outcomeOf, h]

/-- A job with an ABORTED lane is ABORTED (R73). -/
theorem Job.fixStatus_aborted {j : Job} (h : j.someAborted) : j.fixStatus.status = .aborted :=
  j.fixStatus_status.trans (if_pos h)

/-- A job whose every lane is ABORTED is ABORTED, and all its lanes have failed (R73). -/
theorem Job.fixStatus_allAborted {j : Job} (hne : j.spec.lanes ≠ 0)
    (h : ∀ i : LaneId, inSet j.spec.lanes i = true → j.outcome i = some .aborted) :
    j.fixStatus = { status := .aborted, okMask := 0, failMask := j.spec.lanes } := by
  obtain ⟨i, hi⟩ : ∃ i : LaneId, inSet j.spec.lanes i = true := by
    by_contra hnone
    exact hne ((laneSet_eq_zero_iff _).mpr (not_exists.mp hnone))
  have hok : j.okMask = 0 := by
    refine (laneSet_eq_zero_iff _).mpr fun m hm => ?_
    obtain ⟨hset, houtcome⟩ := (j.inSet_okMask m).mp hm
    rw [h m hset] at houtcome
    cases houtcome
  obtain ⟨hokMask, hfailMask⟩ := j.fixStatus_masks
  have hstatus := Job.fixStatus_aborted ⟨i, hi, h i hi⟩
  have hall : ~~~(0 : BitVec 16) = BitVec.allOnes 16 := rfl
  have hfail : j.fixStatus.failMask = j.spec.lanes := by rw [hfailMask, hok, hall, BitVec.and_allOnes]
  exact congr (congr (congrArg FinalStatus.mk hstatus) (hokMask.trans hok)) hfail

/-- The result of a lane that never took the job up (R75). -/
theorem Lane.result_notTakenUp (l : Lane) (p : Params) (v : Verdict) : l.result p false v =
    { outcome := v.outcome, nak := v.nak, kind := v.kind, addr := v.addr, sample := l.lastSample
      body := if p.kind = .attach then .attach none false else .counters 0 0 0 0 } := by
  unfold Lane.result Lane.resultBody
  cases p.kind <;> rfl

namespace AbortReaches

variable {s t : State} {n : SlotId} {k b : Job} {i : LaneId}

/-- What the abort records for a lane of the set is the lane's result. -/
theorem results_of_records (h : AbortReaches s t n k b (lanesOf k.spec.lanes)) {r : LaneResult}
    (hi : inSet k.spec.lanes i = true) (hr : (s.lane i).abortRecords i n k = some r) : b.results[i.val] = some r := by
  rw [h.results, if_pos ((mem_lanesOf _ i).mpr hi), hr, Option.some_or]

theorem outcome_of_records (h : AbortReaches s t n k b (lanesOf k.spec.lanes)) {r : LaneResult}
    (hi : inSet k.spec.lanes i = true) (hr : (s.lane i).abortRecords i n k = some r) : b.outcome i = some .aborted := by
  rw [Job.outcome, h.results_of_records hi hr, Option.map_some, Lane.abortRecords_outcome hr]

/-- A lane that is not in the set, or for which nothing is recorded, stands as it did. -/
theorem keeps (h : AbortReaches s t n k b (lanesOf k.spec.lanes))
    (hi : inSet k.spec.lanes i = false ∨ (s.lane i).abortRecords i n k = none) :
    t.lane i = s.lane i ∧ b.results[i.val] = k.results[i.val] := by
  rw [h.lanes, h.results]
  by_cases hmem : i ∈ lanesOf k.spec.lanes
  · have hrec := hi.resolve_left (by rw [(mem_lanesOf _ i).mp hmem]; exact nofun)
    rw [if_pos hmem, if_pos hmem, Lane.abortLeaves_unrecorded hrec, hrec, Option.none_or]
    exact ⟨rfl, rfl⟩
  · rw [if_neg hmem, if_neg hmem]
    exact ⟨rfl, rfl⟩

/-- A lane of the set is left as the abort leaves it. -/
theorem lane_of_inSet (h : AbortReaches s t n k b (lanesOf k.spec.lanes)) (hi : inSet k.spec.lanes i = true) :
    t.lane i = (s.lane i).abortLeaves i n k := by
  rw [h.lanes, if_pos ((mem_lanesOf _ i).mpr hi)]

/-- A job whose abort is pending on a lane stays in its state (R151). -/
theorem stays (h : AbortReaches s t n k b (lanesOf k.spec.lanes)) (hi : inSet k.spec.lanes i = true)
    (hr : k.results[i.val] = none) (hrec : (s.lane i).abortRecords i n k = none) : b.state = k.state := by
  refine h.settles.state (Bool.eq_false_iff.mpr fun hdone => ?_)
  have hsome := b.allDone_iff.mp hdone i (by rwa [h.settles.spec])
  rw [(h.keeps (.inr hrec)).2, hr] at hsome
  cases hsome

/-- Where an outcome was open on some lane of the set, and the abort is pending on none, the job is RETIRING with status
ABORTED (R73, R150). -/
theorem retires (h : AbortReaches s t n k b (lanesOf k.spec.lanes))
    (hopen : ∃ i : LaneId, inSet k.spec.lanes i = true ∧ k.results[i.val] = none)
    (hrec : ∀ i : LaneId, inSet k.spec.lanes i = true → k.results[i.val] = none → (s.lane i).abortRecords i n k ≠ none) :
    b.state = .retiring ∧ b.final = some b.fixStatus ∧ b.fixStatus.status = .aborted := by
  obtain ⟨i, hi, hr⟩ := hopen
  have hnot : k.allDone = false := Bool.eq_false_iff.mpr fun hdone => by simpa [hr] using k.allDone_iff.mp hdone i hi
  have hdone : b.allDone = true := by
    refine b.allDone_iff.mpr fun m hm => ?_
    rw [h.settles.spec] at hm
    by_cases hm' : k.results[m.val] = none
    · obtain ⟨r, hr⟩ := Option.ne_none_iff_exists'.mp (hrec m hm hm')
      rw [h.results_of_records hm hr]
      rfl
    · rw [(h.keeps (.inr (Lane.abortRecords_recorded hm'))).2]
      exact Option.isSome_iff_ne_none.mpr hm'
  obtain ⟨hstate, hfinal⟩ := h.settles.retired hnot hdone
  obtain ⟨r, hr⟩ := Option.ne_none_iff_exists'.mp (hrec i hi hr)
  exact ⟨hstate, hfinal, Job.fixStatus_aborted ⟨i, by rwa [h.settles.spec], h.outcome_of_records hi hr⟩⟩

/-- Where an outcome is recorded for every lane of the set, all of them are ABORTED (R73, R148). -/
theorem retires_all (h : AbortReaches s t n k b (lanesOf k.spec.lanes)) (hne : k.spec.lanes ≠ 0)
    (hrec : ∀ i : LaneId, inSet k.spec.lanes i = true → (s.lane i).abortRecords i n k ≠ none) :
    b.state = .retiring ∧ b.final = some { status := .aborted, okMask := 0, failMask := k.spec.lanes } ∧
      ∀ i : LaneId, inSet k.spec.lanes i = true → b.outcome i = some .aborted := by
  have hspec := h.settles.spec
  have houtcomes : ∀ i : LaneId, inSet k.spec.lanes i = true → b.outcome i = some .aborted := by
    intro i hi
    obtain ⟨r, hr⟩ := Option.ne_none_iff_exists'.mp (hrec i hi)
    exact h.outcome_of_records hi hr
  obtain ⟨i, hi⟩ : ∃ i : LaneId, inSet k.spec.lanes i = true := by
    by_contra hnone
    exact hne ((laneSet_eq_zero_iff _).mpr (not_exists.mp hnone))
  have hopen : k.results[i.val] = none := by
    by_contra hr
    exact hrec i hi (Lane.abortRecords_recorded hr)
  obtain ⟨hstate, hfinal, -⟩ := h.retires ⟨i, hi, hopen⟩ fun m hm _ => hrec m hm
  refine ⟨hstate, ?_, houtcomes⟩
  rw [hfinal, Job.fixStatus_allAborted (by rwa [hspec]) (by rwa [hspec]), hspec]

end AbortReaches

/-! ### One lane -/

/-- An ATTACH that is aborted before identity leaves the lane so, but for the queue and the step: OFF with nothing running and
no pin, and MODE, RESET and POWER driven (R26, R152). -/
def Lane.abortedEarly (l : Lane) : Lane :=
  let off : Lane := { ({ l with pinned := none } : Lane).enterOff with tx := .idle }
  if l.power then off.powerOff else off

/-- The outputs are driven in their order, POWER last (R26; log 40). -/
theorem Lane.abortedEarly_outputs (l : Lane) : l.abortedEarly.power = false ∧
    l.abortedEarly.outputs = l.outputsAfter (some false) (some true) (some false) := by
  have hoff : (({ l with pinned := none } : Lane).enterOff).outputs = l.outputsAfter (some false) (some true) none :=
    Lane.outputsAfter_modeReset ({ l with pinned := none } : Lane).endSession.stopPhases false true
  rw [Lane.outputsAfter_eq] at hoff ⊢
  unfold Lane.abortedEarly
  dsimp only
  split
  · next hp =>
    refine ⟨rfl, ?_⟩
    change (({ l with pinned := none } : Lane).enterOff).outputs ++ outputChange .power l.power false = _
    rw [hoff]
    simp
  · next hp =>
    have hp : l.power = false := Bool.eq_false_iff.mpr hp
    refine ⟨hp, ?_⟩
    change (({ l with pinned := none } : Lane).enterOff).outputs = _
    rw [hoff, hp]
    simp

/-- Lane `l` is OFF with nothing outstanding, no timer and no training running, MODE deasserted and RESET asserted (R152). -/
structure Lane.OffIdle (l : Lane) : Prop where
  state : l.state = .off
  modePin : l.modePin = false
  resetPin : l.resetPin = true
  outstanding : l.outstanding = none
  powerSettle : l.powerSettle = none
  checkWait : l.checkWait = none
  resetPulse : l.resetPulse = none
  bootSettle : l.bootSettle = none
  training : l.training = none

theorem Lane.abortedEarly_offIdle (l : Lane) : l.abortedEarly.OffIdle := by
  unfold Lane.abortedEarly
  dsimp only
  split <;> exact ⟨rfl, rfl, rfl, rfl, rfl, rfl, rfl, rfl, rfl⟩

section OneLane

variable {s : State} {i : LaneId} {n : SlotId} {k : Job}

/-- An ATTACH aborted before identity ends with ABORTED on a lane that is OFF, and retires if the lane is its only one
(R152). -/
theorem abortBeforeIdentity_ends (hk : s.slot n = some k) (hs : k.state = .queued ∨ k.state = .active)
    (hr : k.results[i.val] = none) (hlanes : k.spec.lanes = laneBit i) (hq : (s.lane i).queue = [n]) :
    ∃ (b : Job) (r : LaneResult), (abortBeforeIdentity s i).slot n = some b ∧ b.state = .retiring ∧
      EndsOnlyJob s (abortBeforeIdentity s i) i n (s.lane i).abortedEarly r ∧ r.outcome = .aborted := by
  let u : State := switchOff ((releasePin s i).modLane i fun l => { l.enterOff with tx := .idle }) i
  have hloc : LaneLocal i s u := (releasePin_local s i).trans ((modLane_local _ i _).trans (switchOff_local _ i))
  have hlane : u.lane i = (s.lane i).abortedEarly := by
    simp only [u, switchOff_lane_self, State.lane_modLane_self, releasePin_lane, if_true]
    rfl
  have hslot : u.slot n = some k := by
    rw [← hk]
    exact State.slot_congr (by simp [u]) n
  have hqueue : (u.lane i).queue = [n] := by
    rw [hlane, ← hq]
    unfold Lane.abortedEarly
    dsimp only
    split <;> rfl
  have hends : abortBeforeIdentity s i =
      closeJob u i n ((u.lane i).result k.spec.params true (Verdict.plain .aborted)) := resolveStep_onlyJob hqueue hslot _
  have hdone : ∀ r : LaneResult, (k.record i r).allDone = true := by
    refine fun r => (Job.allDone_iff _).mpr fun m hm => ?_
    rw [Job.record_spec, hlanes, ← mem_lanesOf, lanesOf_laneBit, List.mem_singleton] at hm
    rw [Job.record_results hr, if_pos hm]
    rfl
  rw [hends]
  refine ⟨_, _, (closeJob_slot hslot hs _ n).trans (if_pos rfl), ?_, hlane ▸ endsOnlyJob_closeJob hloc hqueue hslot hr _, rfl⟩
  rw [Job.retiredIfDone_of_done (hdone _)]

/-- With no request outstanding the job's only lane ends its part with ABORTED, and the job retires (R150). -/
theorem abortLane_onlyLane (hk : s.slot n = some k) (hs : k.state = .queued ∨ k.state = .active)
    (hr : k.results[i.val] = none) (hlanes : k.spec.lanes = laneBit i) (hq : (s.lane i).queue = [n])
    (hearly : ¬ (k.spec.params.kind = .attach ∧ (s.lane i).identity = none)) (ho : (s.lane i).outstanding = none) :
    ∃ b : Job, AbortReaches s (abortLane n s i) n k b [i] ∧ b.state = .retiring ∧
      b.final = some { status := .aborted, okMask := 0, failMask := k.spec.lanes } ∧ b.outcome i = some .aborted ∧
      (abortLane n s i).lane i = { s.lane i with queue := [], step := .none } := by
  have honly : lanesOf k.spec.lanes = [i] := by rw [hlanes, lanesOf_laneBit]
  have hset : ∀ m : LaneId, inSet k.spec.lanes m = true ↔ m = i := fun m => by
    rw [← mem_lanesOf, honly, List.mem_singleton]
  have hi := (hset i).mpr rfl
  have hne : k.spec.lanes ≠ 0 := fun h => (laneSet_eq_zero_iff _).mp h i hi
  obtain ⟨b, hreach⟩ := abortLane_reaches hk (fun _ => hs) hi fun _ _ => ⟨hq, hearly⟩
  rw [← honly] at hreach
  have hrecords := Lane.abortRecords_inHand hr (congrArg List.head? hq) ho
  obtain ⟨hstate, hfinal, houtcome⟩ := hreach.retires_all hne fun m hm => by
    rw [(hset m).mp hm, hrecords]
    exact nofun
  refine ⟨b, honly ▸ hreach, hstate, hfinal, houtcome i hi, ?_⟩
  rw [hreach.lane_of_inSet hi, Lane.abortLeaves_inHand hr hq ho]

end OneLane

/-- Settles O24: the lookup that finds no job it can abort, the mark on a job whose list is being read, and the three ways in
which the only lane of an ACTIVE job stands. -/
theorem abortLookupEffects : Obligations.AbortLookupEffects := by
  refine ⟨?_, ?_⟩
  · intro s q bytes j r tag htaken hp hopen c
    refine ⟨fun hnone => ?_, fun n k hk hr ht hs hread honly => ?_⟩
    · have hfixed : ∀ (n : SlotId) (k : Job), s.slot n = some k → k.ring = r → k.spec.tag = tag →
          k.abortable = false := by
        intro n k hk hr ht
        rcases hnone n k hk hr ht with hs | ⟨hs, hread⟩
        · simp [Job.abortable, hs]
        · simp [Job.abortable, hs, hread]
      rw [htaken.exec_abort hp, abortLookup_notFound _ hfixed, postIntake_of_open hopen]
      rfl
    · rw [htaken.exec_abort_found hp hopen hk hr ht honly (by simp [Job.abortable, hs, hread]), abortJob_intake hs]
      rfl
  · intro s q bytes j r tag n k i htaken hp hopen hk hr ht hs hlanes hres hq honly c early
    obtain ⟨u, hu⟩ : ∃ u : State, u = (s.withCompletion c).setSlot n (some k.withAbortMark) := ⟨_, rfl⟩
    have hexec : exec (.recordReadEnd .live (.good bytes)) s = .next (abortLane n u i) := by
      rw [htaken.exec_abort_found hp hopen hk hr ht honly (by simp [Job.abortable, hs]), abortJob_active hs, hlanes,
        lanesOf_laneBit, hu]
      rfl
    have hslot : u.slot n = some k.withAbortMark := by rw [hu]; exact State.slot_setSlot_self _ n _
    have hlane : ∀ m : LaneId, u.lane m = s.lane m := fun m => by rw [hu]; rfl
    have hrest : u.ctl = s.ctl ∧ u.supply = s.supply ∧ u.creds = s.creds := by rw [hu]; exact ⟨rfl, rfl, rfl⟩
    have hqueue : (u.lane i).queue = [n] := by rw [hlane, hq]
    have hhead : (u.lane i).queue.head? = some n := congrArg List.head? hqueue
    obtain ⟨hctl, hsupply, hcreds⟩ := hrest
    rw [hexec]
    refine ⟨fun hearly ho => ?_, fun hearly ho => ?_, fun hearly => ?_⟩
    · rw [abortLane_pending hslot hres hhead (by rwa [hlane]) (by rwa [hlane]), hu]
      rfl
    · obtain ⟨b, hreach, hstate, hfinal, houtcome, hleft⟩ :=
        abortLane_onlyLane hslot (.inr hs) hres hlanes hqueue (by rwa [hlane]) (by rwa [hlane])
      rw [hlane] at hleft
      refine ⟨_, b, rfl, (State.outcomeOf_of_slot hreach.slot i).trans houtcome, hreach.slot, hstate, hfinal, hleft,
        fun m hm => ?_, hreach.ctl.trans hctl, hreach.supply.trans hsupply, hreach.creds.trans hcreds⟩
      rw [hreach.lanes, if_neg (by simpa using hm), hlane]
    · rw [abortLane_early hslot hres hhead (by rwa [hlane])]
      obtain ⟨b, r, hb, hstate, hends, houtcome⟩ := abortBeforeIdentity_ends hslot (.inr hs) hres hlanes hqueue
      obtain ⟨hpower, houtputs⟩ := (s.lane i).abortedEarly_outputs
      have hoff := (s.lane i).abortedEarly_offIdle
      have hleft := hends.lane
      rw [hlane] at hleft
      refine ⟨_, b, rfl, ?_, hb, hstate, ?_⟩
      · rw [outcomeOf_eq_resultOf, hends.result, Option.map_some, houtcome]
      · rw [hleft]
        exact ⟨hoff.state, hoff.modePin, hoff.resetPin, hpower, houtputs, hoff.outstanding, rfl, hoff.powerSettle,
          hoff.checkWait, hoff.resetPulse, hoff.bootSettle, hoff.training,
          fun m hm => (hends.others m hm).trans (hlane m), hends.ctl.trans hctl⟩

end Sys2Proof.Machine
end

section
/-! CERTIFICATES. The abort of a job on all lanes of its set, and of a BARRIER that waits (R69, R73, R75, R146, R148 to
R151). -/

namespace Sys2Proof.Machine

/-- The BARRIER of slot `n` has an empty wait set and its status, and its ring's barrier pending is clear (R74, R149). -/
def State.barrierRetired (s : State) (n : SlotId) (k : Job) (st : Status) : State :=
  (s.setSlot n (some { k with
    state := .retiring, waitSet := [], final := some { status := st, okMask := 0, failMask := 0 } })).modRing k.ring
      fun r => { r with barrierPending := false }

section Waiting

variable {s : State} {n : SlotId} {k : Job}

theorem retireBarrier_eq (hk : s.slot n = some k) (st : Status) :
    retireBarrier s n st = offerJob (s.barrierRetired n k st) n := by
  unfold retireBarrier
  rw [hk]
  rfl

/-- The slots, the ring and the holding queue once a BARRIER has retired (R74, R149). -/
theorem retireBarrier_leaves (hk : s.slot n = some k) (st : Status) :
    (∀ m : SlotId, (retireBarrier s n st).slot m = if m = n then
      some { k with state := .retiring, waitSet := [], final := some { status := st, okMask := 0, failMask := 0 } }
      else s.slot m) ∧
    ((retireBarrier s n st).ring k.ring).barrierPending = false ∧
    s.writer.holding <+: (retireBarrier s n st).writer.holding := by
  obtain ⟨-, hintake, hslots, -⟩ := offerJob_frame (s.barrierRetired n k st) n
  rw [retireBarrier_eq hk]
  refine ⟨fun m => ?_, ?_, holding_kept_by_offerJob (s.barrierRetired n k st) n⟩
  · rw [State.slot_congr hslots, State.barrierRetired, State.modRing_slot, State.slot_setSlot]
    simp only [eq_comm]
  · rw [State.ring_congr hintake, State.barrierRetired, State.ring_modRing_self]

end Waiting

/-- Settles O25: a BARRIER that retires at once, a QUEUED job that no lane has in hand, and an ACTIVE job lane by lane. -/
theorem abortsReachEveryLane : Obligations.AbortsReachEveryLane := by
  intro s q bytes j r tag n k htaken hp hopen hk hr ht honly own emptied unseen removed pending hcases
  have habortable : k.abortable = true := by
    rcases hcases with hs | ⟨hs, -⟩ | ⟨hs, -⟩ <;> simp [Job.abortable, hs]
  have hexec : exec (.recordReadEnd .live (.good bytes)) s = .next (abortJob (s.withCompletion own) n k) :=
    htaken.exec_abort_found hp hopen hk hr ht honly habortable
  have hposted : ∀ t : State, (s.withCompletion own).writer.holding <+: t.writer.holding →
      ∃ more : List HeldRecord, t.writer.holding = s.writer.holding ++ .intake own :: more := by
    rintro t ⟨more, hmore⟩
    exact ⟨more, by rw [← hmore, State.withCompletion, List.append_assoc, List.singleton_append]⟩
  have hunseen : ∀ i : LaneId, (s.lane i).result k.spec.params false (Verdict.plain .aborted) = unseen i :=
    fun i => Lane.result_notTakenUp _ _ _
  rw [hexec]
  rcases hcases with hs | ⟨hs, hne, hbehind⟩ | ⟨hs, halone⟩
  · obtain ⟨hslot, hring, hholding⟩ := retireBarrier_leaves (s := s.withCompletion own) hk .aborted
    obtain ⟨hctl, hlanes, hpool, hcreds, hsupply, -⟩ := retireBarrier_frame (s.withCompletion own) n .aborted
    obtain ⟨more, hmore⟩ := hposted _ hholding
    rw [abortJob_waiting hs]
    refine ⟨_, _, more, rfl, (hslot n).trans (if_pos rfl), fun m hm => (hslot m).trans (if_neg hm), hctl, hmore,
      fun _ => ⟨rfl, hr ▸ hring, hlanes, hpool, hcreds, hsupply⟩, fun h => ?_, fun h => ?_⟩
    · exact absurd (hs.symm.trans h) nofun
    · exact absurd (hs.symm.trans h) nofun
  · obtain ⟨b, hreach⟩ := abortAll_reaches (s := s.withCompletion own) hk (.inl hs)
      fun i hi _ hq => absurd hq (hbehind i hi).2
    have hrecords : ∀ i : LaneId, inSet k.spec.lanes i = true → (s.lane i).abortRecords i n k = some (unseen i) :=
      fun i hi => (Lane.abortRecords_behind (hbehind i hi).1 (hbehind i hi).2).trans (congrArg some (hunseen i))
    obtain ⟨hstate, hfinal, -⟩ := hreach.retires_all hne fun i hi => by
      rw [show (s.withCompletion own).lane i = s.lane i from rfl, hrecords i hi]
      exact nofun
    obtain ⟨more, hmore⟩ := hposted _ hreach.holding
    rw [abortJob_queued hs]
    refine ⟨_, b, more, rfl, hreach.slot, hreach.others, hreach.ctl, hmore, fun h => ?_,
      fun _ => ⟨hstate, hfinal, fun i => ?_, fun i hi => ?_, ?_, hreach.creds, hreach.supply⟩, fun h => ?_⟩
    · exact absurd (hs.symm.trans h) nofun
    · split
      · next hi => exact (hreach.lane_of_inSet hi).trans (Lane.abortLeaves_behind (hbehind i hi).1 (hbehind i hi).2)
      · next hi => exact (hreach.keeps (.inl (by simpa using hi))).1
    · exact (State.resultOf_of_slot hreach.slot i).trans (hreach.results_of_records hi (hrecords i hi))
    · exact hreach.pool fun i hi => (hbehind i ((mem_lanesOf _ i).mp hi)).2
    · exact absurd (hs.symm.trans h) nofun
  · obtain ⟨b, hreach⟩ := abortAll_reaches (s := (s.withCompletion own).setSlot n (some k.withAbortMark))
      (k := k.withAbortMark) (State.slot_setSlot_self _ n _) (.inr hs) fun i hi hres hq =>
        ⟨(halone i hi hres hq).1, fun h => (halone i hi hres hq).2 h.1 h.2⟩
    have hpending : ∀ i : LaneId, pending i → (s.lane i).abortRecords i n k.withAbortMark = none :=
      fun i ⟨_, _, hq, ho⟩ => Lane.abortRecords_pending hq ho
    obtain ⟨more, hmore⟩ := hposted _ hreach.holding
    rw [abortJob_active hs]
    refine ⟨_, b, more, rfl, hreach.slot, fun m hm => (hreach.others m hm).trans (State.slot_setSlot_ne _ hm _),
      hreach.ctl, hmore, fun h => ?_, fun h => ?_, fun _ => ⟨hreach.settles.mark, hreach.creds, hreach.supply,
        fun ⟨i, hp⟩ => ?_, fun hnone hopenLane => ?_, fun i => ⟨fun hkept => ?_, fun hi hres hq => ?_, fun hi hres hq ho => ?_⟩⟩⟩
    · exact absurd (hs.symm.trans h) nofun
    · exact absurd (hs.symm.trans h) nofun
    · exact (hreach.stays hp.1 hp.2.1 (hpending i hp)).trans hs
    · obtain ⟨hstate, hfinal, hstatus⟩ := hreach.retires hopenLane fun i hi hres hrec => hnone
        ⟨i, hi, hres, (Lane.abortRecords_eq_none_iff (k := k.withAbortMark) hres).mp hrec⟩
      exact ⟨hstate, _, hfinal, hstatus⟩
    · obtain ⟨hleft, hres⟩ := hreach.keeps (i := i) <| by
        rcases hkept with hi | hres | hp
        · exact .inl hi
        · exact .inr (Lane.abortRecords_recorded (k := k.withAbortMark) hres)
        · exact .inr (hpending i hp)
      exact ⟨hleft, (State.resultOf_of_slot hreach.slot i).trans hres⟩
    · have hrecords := Lane.abortRecords_behind (k := k.withAbortMark) hres hq
      exact ⟨(hreach.lane_of_inSet hi).trans (Lane.abortLeaves_behind (k := k.withAbortMark) hres hq),
        (State.resultOf_of_slot hreach.slot i).trans <|
          (hreach.results_of_records hi hrecords).trans (congrArg some (hunseen i))⟩
    · have hrecords := Lane.abortRecords_inHand (k := k.withAbortMark) hres hq ho
      exact ⟨(hreach.lane_of_inSet hi).trans
        (Lane.abortLeaves_inHand (k := k.withAbortMark) hres (halone i hi hres hq).1 ho),
        (State.outcomeOf_of_slot hreach.slot i).trans (hreach.outcome_of_records hi hrecords)⟩

end Sys2Proof.Machine
end

section
/-! SUPPORT. Device Control's commands by the device state: ENABLE and HALT, the drain, the interrupt message and the entry
to FAULT, each said once (R134, R143, R157, R158, R161, R162). -/

namespace Sys2Proof.Machine

/-! ### Messages -/

theorem newlySet_self (mask irq : IrqBits) : newlySet mask irq irq = false := by
  simp [newlySet]

/-- Where the FAULT bit has been set, it is new if it was clear (R143). -/
theorem newlySet_fault (mask irq : IrqBits) : newlySet mask irq { irq with fault := true } = (mask.fault && !irq.fault) := by
  obtain ⟨cq, fault, halt⟩ := irq
  cases cq <;> cases halt <;> simp [newlySet]

/-- Where the HALT bit has been set, it is new if it was clear (R143). -/
theorem newlySet_halt (mask irq : IrqBits) : newlySet mask irq { irq with halt := true } = (mask.halt && !irq.halt) := by
  simpa using newlySet_cq_halt mask irq false true

/-- A happening that sets no bit of IRQ sends no message (R143). -/
theorem withMessage_of_irq {b s : State} (h : s.ctl.irq = b.ctl.irq) : withMessage b s = s := by
  rw [withMessage_eq, h, newlySet_self]
  rfl

/-- Of the state in which a happening began, only the bits of IRQ count for its message. -/
theorem withMessage_congr {a b : State} (h : a.ctl.irq = b.ctl.irq) (s : State) : withMessage a s = withMessage b s := by
  unfold withMessage
  rw [h]

/-! ### The drain -/

/-- Device Control once the drain of QUIESCING has completed: HALTED, the HALT bit of IRQ, and its message if it is enabled
and was clear (R143, R161). -/
def controlAfterDrain (s : State) : Control :=
  { s.ctl with
    device := .halted
    irq := { s.ctl.irq with halt := true }
    messages := s.ctl.messages + (if s.mask.halt && !s.ctl.irq.halt then 1 else 0) }

section Drain

variable {s u : State} (hirq : u.ctl.irq = s.ctl.irq)
include hirq

/-- The drain of a happening that has set no bit of IRQ before it, where it completes. -/
theorem withMessage_drainIfComplete (hq : u.ctl.device = .quiescing) (hd : u.drained) :
    withMessage s (drainIfComplete u) = { u with ctl := controlAfterDrain u } := by
  obtain ⟨halts, hhalts, heq⟩ := drainIfComplete_eq u
  rw [heq, hhalts.mpr ⟨hq, hd⟩, withMessage_eq, ← hirq, Bool.or_true]
  simp only [controlAfterDrain, ← newlySet_halt]
  rfl

/-- And where a condition of it does not hold. -/
theorem withMessage_drainIfComplete_of_not (h : ¬ (u.ctl.device = .quiescing ∧ u.drained)) :
    withMessage s (drainIfComplete u) = u := by
  obtain ⟨halts, hhalts, heq⟩ := drainIfComplete_eq u
  have hstays : halts = false := Bool.eq_false_iff.mpr (mt hhalts.mp h)
  rw [heq, hstays, Bool.or_false]
  exact withMessage_of_irq hirq

end Drain

/-! ### Device FAULT -/

section Fault

variable {s u : State} (hctl : u.ctl = s.ctl) (c : Cause)
include hctl

/-- A failed transfer in a device state other than FAULT (R162). -/
theorem withMessage_deviceFault (hd : s.ctl.device ≠ .fault) :
    withMessage s (deviceFault u c) = { u with ctl := controlAfterFault s c } := by
  unfold deviceFault
  rw [if_neg (by rw [hctl]; exact hd), withMessage_eq]
  simp only [State.raise, controlAfterFault, ← newlySet_fault, hctl, Bool.or_false, Bool.or_true]
  rfl

/-- In FAULT a further report is discarded (R162). -/
theorem withMessage_deviceFault_of_fault (hd : s.ctl.device = .fault) : withMessage s (deviceFault u c) = u := by
  unfold deviceFault
  rw [if_pos (by rw [hctl]; exact hd)]
  exact withMessage_of_irq (by rw [hctl])

end Fault

/-! ### ENABLE and HALT -/

section Commands

variable {s : State}

/-- The configuration block read is issued at CONFIG_ADDR (R158). -/
def State.readingConfig (s : State) : State :=
  { s with ctl := { s.ctl with device := .enabling, configRead := some s.ctl.configAddr } }

theorem enableCommand_idle (h : s.ctl.device = .off ∨ s.ctl.device = .halted) : enableCommand s = s.readingConfig := by
  unfold enableCommand
  rcases h with h | h
  · rw [h]; rfl
  · rw [h]; rfl

theorem enableCommand_ignored (h : s.ctl.device = .enabling ∨ s.ctl.device = .running ∨ s.ctl.device = .quiescing ∨
    s.ctl.device = .fault) : enableCommand s = s := by
  unfold enableCommand
  rcases h with h | h | h | h
  all_goals rw [h]

theorem enableCommand_irq : (enableCommand s).ctl.irq = s.ctl.irq := by
  unfold enableCommand
  split <;> rfl

theorem haltCommand_running (h : s.ctl.device = .running) : haltCommand s = enterQuiescing s := by
  unfold haltCommand
  rw [h]

theorem haltCommand_enabling (h : s.ctl.device = .enabling) :
    haltCommand s = { s with ctl := { s.ctl with keptHalt := true } } := by
  unfold haltCommand
  rw [h]

theorem haltCommand_ignored (h : s.ctl.device = .off ∨ s.ctl.device = .quiescing ∨ s.ctl.device = .halted ∨
    s.ctl.device = .fault) : haltCommand s = s := by
  unfold haltCommand
  rcases h with h | h | h | h
  all_goals rw [h]

theorem exec_enable (s : State) : exec (.enable false) s = .next (enableCommand s) :=
  congrArg _ (withMessage_of_irq enableCommand_irq)

/-- A write that asks for both is ENABLE and then HALT (R157). -/
theorem exec_enable_halt (s : State) : exec (.enable true) s = exec .halt (enableCommand s) :=
  congrArg _ (withMessage_congr enableCommand_irq.symm _)

theorem exec_halt_enabling (h : s.ctl.device = .enabling) :
    exec .halt s = .next { s with ctl := { s.ctl with keptHalt := true } } := by
  simp only [exec, execHalt, haltCommand_enabling h]
  exact congrArg _ (withMessage_of_irq rfl)

theorem exec_halt_ignored (h : s.ctl.device = .off ∨ s.ctl.device = .quiescing ∨ s.ctl.device = .halted ∨
    s.ctl.device = .fault) : exec .halt s = .next s := by
  simp only [exec, execHalt, haltCommand_ignored h]
  exact congrArg _ (withMessage_of_irq rfl)

/-- A ring as HALT leaves it (R134). -/
theorem Ring.dropHeld_eq (g : Ring) :
    g.dropHeld = if g.held = none then g else { g with held := none, blocked := .none } := by
  unfold Ring.dropHeld
  split
  · next h => rw [if_pos h]
  · next h => rw [if_neg (by rw [h]; nofun)]

/-- QUIESCING with every held entry dropped, and the drain not looked at yet (R134, R161). -/
def State.quiescing (s : State) : State :=
  { s with ctl := { s.ctl with device := .quiescing }
           intake := { s.intake with rings := s.intake.rings.map Ring.dropHeld } }

theorem State.ring_quiescing (s : State) (r : RingId) : s.quiescing.ring r = (s.ring r).dropHeld := by
  simp [State.quiescing, State.ring]

/-- HALT in RUNNING with the drain complete already (R161). -/
theorem withMessage_enterQuiescing {b : State} (hirq : s.ctl.irq = b.ctl.irq) (hd : s.drained) :
    withMessage b (enterQuiescing s) = { s.quiescing with ctl := controlAfterDrain s } :=
  withMessage_drainIfComplete (u := s.quiescing) hirq rfl hd

/-- HALT in RUNNING with work still to drain. -/
theorem withMessage_enterQuiescing_of_not {b : State} (hirq : s.ctl.irq = b.ctl.irq) (hd : ¬ s.drained) :
    withMessage b (enterQuiescing s) = s.quiescing :=
  withMessage_drainIfComplete_of_not (u := s.quiescing) hirq fun h => hd h.2

end Commands

end Sys2Proof.Machine
end

section
/-! CERTIFICATES. Resets, writes of CONTROL, HALT and the drain (R51, R95, R134, R157, R158, R161, R164). -/

namespace Sys2Proof.Machine

/-! ### Resets -/

/-- A lane as a reset leaves it: its outputs driven MODE, RESET, POWER, and a readback write of it running on (R26, R69). -/
theorem Lane.returned_eq (l : Lane) : l.returned =
    { Lane.reset with outputs := l.outputsAfter (some false) (some true) (some false), readback := l.readback } := by
  unfold Lane.returned
  rw [Lane.outputsAfter_all]

theorem Lane.returned_reset : Lane.reset.returned = Lane.reset := rfl

@[simp] theorem State.lane_reset (i : LaneId) : State.reset.lane i = Lane.reset := by simp [State.reset, State.lane]

@[simp] theorem State.slot_reset (n : SlotId) : State.reset.slot n = none := by simp [State.reset, State.slot]

@[simp] theorem State.cred_reset (c : CredId) : State.reset.cred c = Credential.reset := by
  simp [State.reset, State.cred]

@[simp] theorem State.ring_reset (r : RingId) : State.reset.ring r = Ring.reset := by
  simp [State.reset, Intake.reset, State.ring]

theorem Pool.inFlight_reset : Pool.reset.inFlight = 0 := by
  rw [Pool.inFlight_eq, List.countP_eq_zero]
  exact fun b _ => by simp [Pool.reading_of_none (p := Pool.reset) (b := b) (by simp [Pool.block, Pool.reset])]

/-- A power-on reset of the part as one leaves it changes nothing. -/
theorem resetTo_reset : resetTo State.reset 0 = State.reset := by
  have hlanes : State.reset.lanes.map Lane.returned = State.reset.lanes := by
    rw [show State.reset.lanes = Vector.replicate 16 Lane.reset from rfl, Vector.map_replicate, Lane.returned_reset]
  have hstale : State.reset.pool.stale + State.reset.pool.inFlight = 0 := (Nat.zero_add _).trans Pool.inFlight_reset
  unfold resetTo
  rw [hlanes, hstale]
  rfl

/-- Settles O60: the state after a reset meets them, from whatever state, and so from itself. -/
theorem resetStateMeetsTheInvariants : Obligations.ResetStateMeetsTheInvariants := by
  have hreset := resetTo_reset
  exact ⟨hreset ▸ resetTo_conforms 0, hreset ▸ resetTo_queuesFit 0, Pool.sound_reset (Nat.zero_le _),
    hreset ▸ resetTo_pinsMatch 0, Writer.reset_sound⟩

/-- Settles O3: both resets are one operation with CONFIG_ADDR given, and each block is at its reset value. -/
theorem resetsReturnEveryBlockToItsValues : Obligations.ResetsReturnEveryBlockToItsValues := by
  refine ⟨fun s => ?_, ?_⟩
  · intro returned
    have hlanes : s.lanes.map Lane.returned = s.lanes.map returned := congrArg s.lanes.map (funext Lane.returned_eq)
    rw [← hlanes]
    exact ⟨rfl, rfl⟩
  · refine ⟨⟨rfl, rfl, rfl, rfl, rfl, rfl, rfl, rfl, rfl, rfl⟩, fun i => ?_, State.slot_reset, ⟨?_, rfl, Pool.inFlight_reset⟩,
      State.cred_reset, ⟨rfl, rfl, rfl, rfl⟩, ⟨fun r => ?_, rfl, rfl⟩, ⟨rfl, rfl, rfl, rfl, rfl, rfl⟩⟩
    · rw [State.lane_reset]
      decide
    · exact List.map_coe_finRange_eq_range
    · rw [State.ring_reset]
      decide

/-! ### CONTROL -/

theorem commandOfWrite_control (v : BitVec 32) : commandOfWrite controlOffset 32 v = commandOfControl v := rfl

/-- Settles O4: the write by its three bits, and ENABLE and HALT by the device state. -/
theorem controlWriteTable : Obligations.ControlWriteTable := by
  refine ⟨fun s => rfl, fun v s => ?_⟩
  rw [commandOfWrite_control]
  refine ⟨fun hr => ?_, fun hr he hh => ⟨_, exec_enable s, ?_⟩, fun hr he hh => ?_, fun hr he hh => ?_, fun hr he hh => ?_,
    fun hd => ?_, fun hd => ⟨?_, ?_⟩, exec_halt_ignored, exec_halt_enabling, fun hd => ?_⟩
  · simp only [commandOfControl, hr, if_true]
  · rw [← exec_enable_halt]
    simp only [commandOfControl, hr, he, hh, Bool.false_eq_true, if_false, if_true]
  · simp only [commandOfControl, hr, he, hh, Bool.false_eq_true, if_false, if_true]
  · simp only [commandOfControl, hr, he, hh, Bool.false_eq_true, if_false, if_true]
  · simp only [commandOfControl, hr, he, hh, Bool.false_eq_true, if_false]
    rfl
  · rw [exec_enable, enableCommand_ignored hd]
  · rw [exec_enable, enableCommand_idle hd]
    rfl
  · rw [exec_enable_halt, enableCommand_idle hd, exec_halt_enabling rfl]
    rfl
  · refine ⟨_, rfl, ?_⟩
    rw [haltCommand_running hd]
    by_cases hdrained : s.drained
    · rw [withMessage_enterQuiescing rfl hdrained]
      exact .inr rfl
    · rw [withMessage_enterQuiescing_of_not rfl hdrained]
      exact .inl rfl

/-! ### HALT and the drain -/

/-- Settles O5: HALT and DRAIN_COMPLETE, each by whether the drain is complete. -/
theorem haltAndDrain : Obligations.HaltAndDrain := by
  refine ⟨fun s hd => ?_, fun s => ⟨fun hq hdrained => ?_, fun hstop => ?_⟩⟩
  · have hring : ∀ r : RingId, s.quiescing.ring r =
        if (s.ring r).held = none then s.ring r else { s.ring r with held := none, blocked := .none } :=
      fun r => (s.ring_quiescing r).trans (s.ring r).dropHeld_eq
    refine ⟨_, rfl, ?_⟩
    rw [haltCommand_running hd]
    by_cases hdrained : s.drained
    · rw [withMessage_enterQuiescing rfl hdrained]
      exact ⟨hring, rfl, rfl, rfl, rfl, rfl, rfl, rfl, rfl, fun _ => rfl, fun h => absurd hdrained h⟩
    · rw [withMessage_enterQuiescing_of_not rfl hdrained]
      exact ⟨hring, rfl, rfl, rfl, rfl, rfl, rfl, rfl, rfl, fun h => absurd h hdrained, fun _ => rfl⟩
  · exact congrArg _ (withMessage_drainIfComplete rfl hq hdrained)
  · refine congrArg _ (withMessage_drainIfComplete_of_not rfl ?_)
    rintro ⟨hq, hdrained⟩
    exact hstop.elim (fun h => h hq) (fun h => h hdrained)

end Sys2Proof.Machine
end

section
/-! CERTIFICATES. The configuration block: the ranges of its values, what a refused block discards, and what an accepted one
brings into force (R117, R122, R123, R141, R159, R160). -/

namespace Sys2Proof.Machine

/-! ### The values of the block -/

theorem mem_allRings (r : RingId) : r ∈ allRings := List.mem_finRange r

/-- A field of one byte is that byte. -/
theorem leField_one (bs : List Byte) (off : Nat) : leField bs off 1 = (bs.getD off 0).toNat := by
  have hhead : bs.getD off 0 = (bs.drop off).headD 0 := by
    rw [List.getD_eq_getElem?_getD, List.headD_eq_head?_getD, List.head?_drop]
  rw [hhead, leField, slice]
  cases bs.drop off with
  | nil => rfl
  | cons b rest => rfl

section Block

variable (bs : List Byte) (r : RingId)

theorem parseConfig_ringSize : (parseConfig bs).ringSizes[r.val] = leField bs (32 + 2 * r.val) 2 := by simp [parseConfig]

theorem parseConfig_ringBase : (parseConfig bs).ringBases[r.val].toNat = leField bs (8 * r.val) 8 := by
  simp only [parseConfig, Vector.getElem_ofFn]
  exact toNat_leField (by norm_num) bs _

theorem parseConfig_cqBase : (parseConfig bs).cqBase.toNat = leField bs 40 8 := toNat_leField (by norm_num) bs 40

end Block

/-- The conditions of R159 as propositions. -/
theorem ConfigBlock.accepted_iff (c : ConfigBlock) : c.accepted = true ↔
    (∀ r : RingId, c.ringSizes[r.val] = 0 ∨
      (4 ≤ c.ringSizes[r.val] ∧ c.ringSizes[r.val] ≤ 1024 ∧ c.ringBases[r.val].toNat % 64 = 0)) ∧
    (∃ r : RingId, c.ringSizes[r.val] ≠ 0) ∧
    16 ≤ c.cqSize ∧ c.cqSize ≤ 4096 ∧ c.cqBase.toNat % 16 = 0 ∧
    1 ≤ c.settings.threshold ∧ c.settings.threshold ≤ 64 ∧ c.settings.delay ≤ 10000 ∧
    5 ≤ c.settings.responseTimeout ∧ c.settings.responseTimeout ≤ 1000 ∧
    100 ≤ c.settings.waitCap ∧ c.settings.waitCap ≤ 60000 ∧ c.settings.reserve ≤ 3 ∧
    1 ≤ c.settings.supervisePeriod ∧ c.settings.supervisePeriod ≤ 1000 ∧ c.maskByte.toNat < 8 := by
  simp only [ConfigBlock.accepted, Bool.and_eq_true, Bool.or_eq_true, List.all_eq_true, List.any_eq_true, beq_iff_eq,
    bne_iff_ne, decide_eq_true_eq, mem_allRings, true_and, forall_const, and_assoc, Fin.getElem_fin, ne_eq]

/-! ### A refused block -/

section Refused

variable {s : State}

/-- Device Control once a block has been refused (R159). -/
def controlAfterRefusal (s : State) : Control :=
  { s.ctl with
    device := .off, cause := .configInvalid, configRead := none, keptSubmit := Vector.replicate 4 none, keptHalt := false }

/-- Unless its last result record write has ended, a record's transaction is where it was (R141). -/
theorem beginCompletion_of_ne (h : s.writer.txn ≠ some (.results [])) : beginCompletion s = s := by
  unfold beginCompletion
  split
  · next htxn _ => exact absurd htxn h
  · rfl

/-- A completion record's write does not depend on Device Control. -/
theorem completionOut_ctl (k : Control) (h : HeldRecord) : completionOut { s with ctl := k } h = completionOut s h := by
  cases h <;> rfl

/-- A completion record write that has waited for the end of ENABLING is issued on arrival in OFF (R141; log 30). -/
theorem configRefused_waiting {h : HeldRecord} {rest : List HeldRecord} (htxn : s.writer.txn = some (.results []))
    (hhold : s.writer.holding = h :: rest) : configRefused s =
      { s with
        ctl := controlAfterRefusal s
        writer := { s.writer with txn := some (.completion (completionOut s h)) } } := by
  have hstay : s = s.setTxn (some (.results [])) := by rw [← htxn]; rfl
  have hbegin := beginCompletion_of_no_writes (s := { s with ctl := controlAfterRefusal s }) hhold
  rw [completionOut_ctl] at hbegin
  exact (congrArg configRefused hstay).trans hbegin

variable (hd : s.ctl.device = .enabling) (hread : s.ctl.configRead.isSome = true)
include hd hread

/-- The configuration block read ends (R158). -/
theorem exec_configReadEnd_good {bytes : List Byte} (hlen : bytes.length = 64) :
    exec (.configReadEnd .live (.good bytes)) s = .next
      (if (parseConfig bytes).accepted then withMessage s (configAccepted s (parseConfig bytes)) else configRefused s) := by
  obtain ⟨a, ha⟩ := Option.isSome_iff_exists.mp hread
  simp only [exec, execConfigReadEnd, hd, ha, hlen, ne_eq, not_true_eq_false, if_false]
  split <;> rfl

theorem exec_configReadEnd_failed : exec (.configReadEnd .live .failed) s =
    .next { s with ctl := controlAfterFault s .configRead } := by
  obtain ⟨a, ha⟩ := Option.isSome_iff_exists.mp hread
  simp only [exec, execConfigReadEnd, hd, ha]
  exact congrArg _ (withMessage_deviceFault rfl _ (by rw [hd]; nofun))

end Refused

/-- Settles O9: the conditions field by field, and a refused block by where a record's transaction stands. -/
theorem configBlockCheckedAndRefused : Obligations.ConfigBlockCheckedAndRefused := by
  refine fun bytes => ⟨?_, fun s hd hread hlen hbad => ?_⟩
  · rw [ConfigBlock.accepted_iff]
    simp only [parseConfig_ringSize, parseConfig_ringBase, parseConfig_cqBase]
    rw [leField_one bytes 60]
    simp only [parseConfig]
  · rw [exec_configReadEnd_good hd hread hlen, hbad]
    exact ⟨fun htxn => congrArg _ (beginCompletion_of_ne htxn),
      fun h rest htxn hhold => congrArg _ (configRefused_waiting htxn hhold)⟩

end Sys2Proof.Machine
end

section
/-! CERTIFICATES. Transfers that fail, and those whose end reaches nothing (R69, R95, R126, R134, R140, R158, R162). -/

namespace Sys2Proof.Machine

/-! ### Transfers that fail -/

section Failed

variable {s : State}

theorem exec_recordReadEnd_failed {r : RingId} {a : BitVec 64} (he : s.intake.engine = .recordRead r a)
    (hd : s.ctl.device ≠ .fault) :
    exec (.recordReadEnd .live .failed) s = .next { s with ctl := controlAfterFault s .ringRead } := by
  simp only [exec, execRecordReadEnd, he, hd, if_false]
  exact congrArg _ (withMessage_deviceFault rfl _ hd)

/-- The failed write of lane `i`'s result record is reported, and is one of the job's writes no longer (R140). -/
theorem exec_resultRecordWriteEnd_failed {i : LaneId} {ws : List ResultWrite}
    (htxn : s.writer.txn = some (.results ws)) (hw : ∃ w ∈ ws, w.lane = i) :
    exec (.resultRecordWriteEnd .live i .failed) s = .next (withMessage s
      (deviceFault (s.setTxn (some (.results (ws.filter fun w => w.lane != i)))) .completionWrite)) := by
  have hany : ws.any (fun w => w.lane == i) = true := by simpa using hw
  simp only [exec, execResultRecordWriteEnd, htxn, hany, if_true]

theorem exec_completionRecordWriteEnd_failed {o : HostWriteOut} {h : HeldRecord} {rest : List HeldRecord}
    (htxn : s.writer.txn = some (.completion o)) (hhold : s.writer.holding = h :: rest) :
    exec (.completionRecordWriteEnd .live .failed) s =
      .next (withMessage s (deviceFault (s.setTxn none) .completionWrite)) := by
  simp only [exec, execCompletionRecordWriteEnd, htxn, hhold]

end Failed

/-! ### Transfers whose end reaches nothing -/

section Late

variable (s : State)

/-- A record read's end is discarded in FAULT, and with no record read in hand (R134; log 2). -/
theorem exec_recordReadEnd_discarded {r : HostRead}
    (h : s.ctl.device = .fault ∨ ∀ (g : RingId) (a : BitVec 64), s.intake.engine ≠ .recordRead g a) :
    exec (.recordReadEnd .live r) s = .next s := by
  simp only [exec]
  unfold execRecordReadEnd
  split
  · next heng =>
    rcases h with hd | hnone
    · rw [if_pos hd]
    · exact absurd heng (hnone _ _)
  · rfl

/-- No write that an ended job left behind is in flight on the lane (R69). -/
theorem exec_abandonedWriteEnd_none {i : LaneId} {w : HostWrite}
    (h : (s.lane i).readback = none ∨ ∃ off : Nat, (s.lane i).step = .readbackWrite off) :
    exec (.readbackWriteEnd .abandoned i w) s = .next s := by
  have hleft : (s.lane i).writeLeft = false := by
    unfold Lane.writeLeft
    rcases h with h | ⟨off, h⟩
    · rw [h]
      rfl
    · rw [h]
      exact Bool.and_false _
  simp only [exec, execReadbackWriteEnd, hleft, Bool.false_eq_true, if_false]

end Late

/-- Settles O11: each failed transfer in FAULT and out of it, and the ends of those that belong to nothing. -/
theorem transfersFailOrComeLate : Obligations.TransfersFailOrComeLate := by
  refine ⟨fun s => ⟨exec_configReadEnd_failed, fun r a he => ⟨exec_recordReadEnd_failed he, fun hd => ?_⟩,
    fun i ws htxn hw => ⟨fun hd => ?_, fun hd => ?_⟩, fun o h rest htxn hhold => ⟨fun hd => ?_, fun hd => ?_⟩⟩,
    fun s r w n b i => ⟨rfl, rfl, rfl, rfl, rfl, rfl, exec_abandonedWriteEnd_none s, rfl⟩,
    fun s r => exec_recordReadEnd_discarded s⟩
  · exact exec_recordReadEnd_discarded s (.inl hd)
  · exact (exec_resultRecordWriteEnd_failed htxn hw).trans (congrArg _ (withMessage_deviceFault rfl _ hd))
  · exact (exec_resultRecordWriteEnd_failed htxn hw).trans (congrArg _ (withMessage_deviceFault_of_fault rfl _ hd))
  · exact (exec_completionRecordWriteEnd_failed htxn hhold).trans (congrArg _ (withMessage_deviceFault rfl _ hd))
  · exact (exec_completionRecordWriteEnd_failed htxn hhold).trans (congrArg _ (withMessage_deviceFault_of_fault rfl _ hd))

end Sys2Proof.Machine
end

section
/-! CERTIFICATES. An accepted configuration block: the SUBMITs and the HALT that ENABLING kept, on the new geometry (R117,
R122, R123, R160, R161). -/

namespace Sys2Proof.Machine

/-! ### Kept SUBMITs -/

/-- A ring with the SUBMIT kept for it applied, if its index lies in the ring (R123). -/
def Ring.withKept (g : Ring) (kept : Option (BitVec 16)) : Ring :=
  { g with
    producer :=
      match kept with
      | none => g.producer
      | some x => if x.toNat < g.size then x.toNat else g.producer }

theorem Ring.withKept_of_lt {g : Ring} {x : BitVec 16} (h : x.toNat < g.size) :
    g.withKept (some x) = { g with producer := x.toNat } := by
  simp [Ring.withKept, h]

theorem Ring.withKept_of_le {g : Ring} {x : BitVec 16} (h : g.size ≤ x.toNat) : g.withKept (some x) = g := by
  simp [Ring.withKept, Nat.not_lt.mpr h]

/-- From `s` to `t` the SUBMITs kept for the rings of `l` have been applied, each to its ring as it stood, and nothing else
has changed but SUBMIT_ERROR, which one that does not fit its ring sets (R123). -/
structure SubmitsApplied (kept : Vector (Option (BitVec 16)) 4) (l : List RingId) (s t : State) : Prop where
  frame : t = { s with
    ctl := { s.ctl with submitError := t.ctl.submitError }, intake := { s.intake with rings := t.intake.rings } }
  error : t.ctl.submitError = true ↔
    s.ctl.submitError = true ∨ ∃ r ∈ l, ∃ x : BitVec 16, kept[r.val] = some x ∧ (s.ring r).size ≤ x.toNat
  ring : ∀ r : RingId, t.ring r = if r ∈ l then (s.ring r).withKept kept[r.val] else s.ring r

section Submits

variable {kept : Vector (Option (BitVec 16)) 4}

theorem SubmitsApplied.nil (s : State) : SubmitsApplied kept [] s s :=
  ⟨rfl, by simp, fun r => (if_neg List.not_mem_nil).symm⟩

/-- No SUBMIT was kept for the ring, one that fits it, or one that does not. -/
theorem SubmitsApplied.one (s : State) (r : RingId) : SubmitsApplied kept [r] s (applyKept kept s r) := by
  unfold applyKept
  cases hk : kept[r.val] with
  | none =>
    refine ⟨rfl, by simp [hk], fun q => ?_⟩
    by_cases hq : q = r
    · subst hq
      rw [if_pos (List.mem_singleton_self q), hk]
      rfl
    · rw [if_neg (List.mem_singleton.not.mpr hq)]
  | some x =>
    dsimp only
    by_cases hx : x.toNat < (s.ring r).size
    · rw [applySubmit_good hx]
      refine ⟨rfl, by simp [hk, hx], fun q => ?_⟩
      by_cases hq : q = r
      · subst hq
        rw [if_pos (List.mem_singleton_self q), hk, State.ring_modRing_self, Ring.withKept_of_lt hx]
      · rw [if_neg (List.mem_singleton.not.mpr hq), State.ring_modRing_ne s hq]
    · rw [applySubmit_bad (.inr ⟨r, rfl, Nat.not_lt.mp hx⟩)]
      refine ⟨rfl, by simp [hk, Nat.not_lt.mp hx, State.submitRefused], fun q => ?_⟩
      by_cases hq : q = r
      · subst hq
        rw [if_pos (List.mem_singleton_self q), hk, Ring.withKept_of_le (Nat.not_lt.mp hx)]
        rfl
      · rw [if_neg (List.mem_singleton.not.mpr hq)]
        rfl

/-- The rings that come after find theirs as it was. -/
theorem SubmitsApplied.cons {r : RingId} {l : List RingId} {s u t : State} (h : SubmitsApplied kept [r] s u)
    (k : SubmitsApplied kept l u t) (hr : r ∉ l) : SubmitsApplied kept (r :: l) s t := by
  have hrest : ∀ q ∈ l, u.ring q = s.ring q := fun q hq =>
    (h.ring q).trans (if_neg (List.mem_singleton.not.mpr (ne_of_mem_of_not_mem hq hr)))
  refine ⟨k.frame.trans (by rw [h.frame]), ?_, fun q => ?_⟩
  · rw [k.error, h.error]
    have hlater : (∃ q ∈ l, ∃ x : BitVec 16, kept[q.val] = some x ∧ (u.ring q).size ≤ x.toNat) ↔
        ∃ q ∈ l, ∃ x : BitVec 16, kept[q.val] = some x ∧ (s.ring q).size ≤ x.toNat :=
      exists_congr fun q => and_congr_right fun hq => by rw [hrest q hq]
    rw [hlater, or_assoc]
    simp only [List.mem_cons, exists_eq_or_imp, List.not_mem_nil, or_false, exists_eq_left]
  · rw [k.ring]
    by_cases hq : q ∈ l
    · rw [if_pos hq, if_pos (List.mem_cons_of_mem r hq), hrest q hq]
    · rw [if_neg hq, h.ring]
      simp only [List.mem_cons, hq, List.not_mem_nil, or_false]

theorem SubmitsApplied.foldl {l : List RingId} (hl : l.Nodup) (s : State) :
    SubmitsApplied kept l s (l.foldl (applyKept kept) s) := by
  induction l generalizing s with
  | nil => exact .nil s
  | cons r l ih =>
    obtain ⟨hr, hnodup⟩ := List.nodup_cons.mp hl
    exact (SubmitsApplied.one s r).cons (ih hnodup _) hr

end Submits

/-! ### The block in force -/

section Accepted

variable (s : State) (c : ConfigBlock)

/-- The values in force, with the kept SUBMITs applied and the kept HALT not yet (R160). -/
def State.reconfigured : State := allRings.foldl (applyKept s.ctl.keptSubmit) (configured s c)

theorem reconfigured_applied : SubmitsApplied s.ctl.keptSubmit allRings (configured s c) (s.reconfigured c) :=
  .foldl (List.nodup_finRange 4) _

theorem ring_configured (r : RingId) : (configured s c).ring r = Ring.configured c.ringBases[r.val] c.ringSizes[r.val] := by
  simp [configured, State.ring]

theorem ring_reconfigured (r : RingId) : (s.reconfigured c).ring r =
    (Ring.configured c.ringBases[r.val] c.ringSizes[r.val]).withKept s.ctl.keptSubmit[r.val] := by
  rw [(reconfigured_applied s c).ring, if_pos (mem_allRings r), ring_configured]

/-- No entry is held on the new geometry, so a HALT has none to drop (R122, R134). -/
theorem dropHeld_reconfigured : (s.reconfigured c).intake.rings.map Ring.dropHeld = (s.reconfigured c).intake.rings := by
  refine Vector.ext fun r hr => ?_
  rw [Vector.getElem_map, Ring.dropHeld_eq]
  refine if_pos ?_
  exact congrArg Ring.held (ring_reconfigured s c ⟨r, hr⟩)

/-- Entering QUIESCING from the values in force changes the device state alone. -/
theorem quiescing_reconfigured : (s.reconfigured c).quiescing =
    { s.reconfigured c with ctl := { (s.reconfigured c).ctl with device := .quiescing } } := by
  unfold State.quiescing
  rw [dropHeld_reconfigured]

/-- The happening of an accepted block, by the kept HALT and by whether the drain is complete already (R160, R161). -/
theorem configAccepted_device : ∃ (device : DeviceState) (irq : IrqBits) (messages : Nat),
    withMessage s (configAccepted s c) = { s.reconfigured c with ctl :=
      { (s.reconfigured c).ctl with device := device, irq := irq, messages := messages } } ∧
    (s.ctl.keptHalt = false → device = .running ∧ irq = s.ctl.irq) ∧
    (s.ctl.keptHalt = true → s.drained → device = .halted ∧ irq = { s.ctl.irq with halt := true }) ∧
    (s.ctl.keptHalt = true → ¬ s.drained → device = .quiescing ∧ irq = s.ctl.irq) := by
  have hframe := (reconfigured_applied s c).frame
  have hdevice : (s.reconfigured c).ctl.device = .running := by rw [hframe]; rfl
  have hirq : (s.reconfigured c).ctl.irq = s.ctl.irq := by rw [hframe]; rfl
  have hdrained : (s.reconfigured c).drained ↔ s.drained := by rw [hframe]; rfl
  cases hk : s.ctl.keptHalt with
  | false =>
    have haccepted : configAccepted s c = s.reconfigured c := by
      unfold configAccepted
      rw [hk]
      rfl
    rw [haccepted, withMessage_of_irq hirq]
    exact ⟨_, _, _, rfl, fun _ => ⟨hdevice, hirq⟩, nofun, nofun⟩
  | true =>
    have haccepted : configAccepted s c = enterQuiescing (s.reconfigured c) := by
      unfold configAccepted
      rw [hk]
      rfl
    rw [haccepted]
    by_cases hd : s.drained
    · rw [withMessage_enterQuiescing hirq (hdrained.mpr hd), quiescing_reconfigured]
      exact ⟨_, _, _, rfl, nofun, fun _ _ => ⟨rfl, by rw [hirq]⟩, fun _ h => absurd hd h⟩
    · rw [withMessage_enterQuiescing_of_not hirq (mt hdrained.mp hd), quiescing_reconfigured]
      exact ⟨_, _, _, rfl, nofun, fun _ h => absurd h hd, fun _ _ => ⟨rfl, hirq⟩⟩

end Accepted

/-- Settles O10: the kept SUBMITs on the new geometry, and the device state by the kept HALT and the drain. -/
theorem configAcceptedComesIntoForce : Obligations.ConfigAcceptedComesIntoForce := by
  intro s bytes c hd hread hlen hacc
  obtain ⟨device, irq, messages, ht, hrun, hhalted, hquiescing⟩ := configAccepted_device s c
  refine ⟨_, (exec_configReadEnd_good hd hread hlen).trans (congrArg _ (if_pos hacc)), ?_⟩
  have hring := ring_reconfigured s c
  obtain ⟨hframe, herror, -⟩ := reconfigured_applied s c
  obtain ⟨error, rings, hu⟩ : ∃ (error : Bool) (rings : Vector Ring 4), s.reconfigured c =
      { configured s c with
        ctl := { (configured s c).ctl with submitError := error }
        intake := { (configured s c).intake with rings := rings } } := ⟨_, _, hframe⟩
  rw [hu] at herror hring
  rw [ht, hu]
  refine ⟨rfl, rfl, rfl, rfl, rfl, rfl, rfl, ?_, fun r => ?_, rfl, rfl, rfl, rfl, rfl, rfl, rfl, rfl,
    hrun, hhalted, hquiescing⟩
  · refine herror.trans (or_congr_right ?_)
    simp only [mem_allRings, true_and, ring_configured, Ring.configured]
  · exact hring r

end Sys2Proof.Machine
end

section
/-! SUPPORT. The queue of commands, which no operation touches: those of the lanes one by one (`LaneLocal`), and those of the
Job Manager, the Intake Unit, the Completion Writer and Device Control (log 1, 95_what_each_step_holds.md). -/

namespace Sys2Proof.Machine

section Pending

variable (s : State)

/-! ### The lanes -/

@[simp] theorem nextJob_pending (i : LaneId) : (nextJob s i).pending = s.pending := (nextJob_local s i).2.1

@[simp] theorem finishLane_pending (i : LaneId) (v : Verdict) : (finishLane s i v).pending = s.pending :=
  (finishLane_local s i v).2.1

@[simp] theorem removeJob_pending (i : LaneId) (n : SlotId) (j : Job) (v : Verdict) :
    (removeJob s i n j v).pending = s.pending := (removeJob_local s i n j v).2.1

@[simp] theorem takeCheck_pending (i : LaneId) (mv : Nat) : (takeCheck s i mv).pending = s.pending :=
  (takeCheck_local s i mv).2.1

@[simp] theorem takeSupervise_pending (i : LaneId) (mv : Nat) : (takeSupervise s i mv).pending = s.pending :=
  (takeSupervise_local s i mv).2.1

/-! ### Jobs placed, aborted, and failed by their image -/

@[simp] theorem placeBarrier_pending (n : SlotId) (j : Job) : (placeBarrier s n j).pending = s.pending := by
  unfold placeBarrier
  dsimp only
  split
  · simp
  · rfl

@[simp] theorem joinQueues_pending (n : SlotId) (l : List LaneId) : (l.foldl (joinQueue n) s).pending = s.pending :=
  foldl_keeps State.pending (joinQueue n) (fun _ _ => rfl) l s

@[simp] theorem placeLaneJob_pending (n : SlotId) (j : Job) : (placeLaneJob s n j).pending = s.pending := by
  unfold placeLaneJob
  refine (foldl_keeps State.pending nextJob nextJob_pending _ _).trans ?_
  simp

@[simp] theorem place_pending (n : SlotId) : (place s n).pending = s.pending := by
  unfold place
  split
  · rfl
  · dsimp only
    split
    all_goals simp

@[simp] theorem examine_pending (r : RingId) (j : JobSpec) : (examine s r j).pending = s.pending := by
  unfold examine
  split
  · rfl
  split
  · unfold claim
    dsimp only
    split
    · rfl
    · simp
  · rfl

@[simp] theorem abortLane_leaves_pending (n : SlotId) (i : LaneId) : (abortLane n s i).pending = s.pending := by
  unfold abortLane
  split
  · rfl
  split
  · rfl
  split
  · simp
  split
  · simp [abortBeforeIdentity]
  split
  · rfl
  · simp

@[simp] theorem abortJob_pending (n : SlotId) (j : Job) : (abortJob s n j).pending = s.pending := by
  have hlanes : ∀ (l : List LaneId) (t : State), (l.foldl (abortLane n) t).pending = t.pending :=
    foldl_keeps State.pending (abortLane n) fun t i => abortLane_leaves_pending t n i
  unfold abortJob
  split
  · rfl
  · rfl
  · simp
  · exact hlanes _ s
  · exact hlanes _ _

@[simp] theorem abortLookup_pending (own : IntakeCompletion) (r : RingId) (tag : BitVec 16) :
    (abortLookup s own r tag).pending = s.pending := by
  unfold abortLookup
  split
  · simp
  split
  · simp
  split
  all_goals simp

@[simp] theorem imageFailedLane_pending (n : SlotId) (i : LaneId) : (imageFailedLane n s i).pending = s.pending := by
  unfold imageFailedLane
  split
  · rfl
  split
  · simp
  · rfl

@[simp] theorem imageFailed_pending (n : SlotId) (g b : Nat) : (imageFailed s n g b).pending = s.pending := by
  unfold imageFailed
  split
  · rfl
  split
  · rfl
  · exact foldl_keeps State.pending (imageFailedLane n) (fun t i => imageFailedLane_pending t n i) _ _

@[simp] theorem blockReadEnd_pending (b : BlockId) (k : Block) (r : HostRead) :
    (blockReadEnd s b k r).pending = s.pending := by
  unfold blockReadEnd
  split
  · split
    · rfl
    split
    all_goals simp
  · simp

/-! ### Records -/

@[simp] theorem clearCredentials_pending (e : Option CredId) : (clearCredentials s e).1.pending = s.pending := by
  unfold clearCredentials
  split
  · split <;> rfl
  · split <;> rfl

@[simp] theorem takeRecord_pending (r : RingId) (bytes : List Byte) : (takeRecord s r bytes).pending = s.pending := by
  unfold takeRecord
  split
  · simp
  split
  · simp
  split
  all_goals simp

@[simp] theorem retireAborted_pending (n : SlotId) (j : Job) : (retireAborted s n j).pending = s.pending := by
  simp [retireAborted]

@[simp] theorem completeFromIntake_pending (n : SlotId) (j : Job) (st : Status) (d : Detail) :
    (completeFromIntake s n j st d).pending = s.pending := by
  simp [completeFromIntake]

/-! ### The Completion Writer -/

@[simp] theorem beginCompletion_pending : (beginCompletion s).pending = s.pending := by
  unfold beginCompletion
  split
  · split <;> rfl
  · rfl

@[simp] theorem cqSignal_pending : (cqSignal s).pending = s.pending := rfl

@[simp] theorem coalesce_pending (irqNow : Bool) : (coalesce s irqNow).pending = s.pending := by
  unfold coalesce
  split
  · rfl
  · dsimp only
    split <;> rfl

@[simp] theorem completeRecord_pending (r : HeldRecord) : (completeRecord s r).pending = s.pending := by
  unfold completeRecord freeRecordSlot
  cases r <;> simp

/-! ### Device Control -/

@[simp] theorem enableCommand_pending : (enableCommand s).pending = s.pending := by
  unfold enableCommand
  split <;> rfl

@[simp] theorem enterQuiescing_pending : (enterQuiescing s).pending = s.pending := by
  simp [enterQuiescing]

@[simp] theorem haltCommand_pending : (haltCommand s).pending = s.pending := by
  unfold haltCommand
  split
  all_goals simp

@[simp] theorem applySubmit_pending (ring index : Nat) : (applySubmit s ring index).pending = s.pending := by
  unfold applySubmit
  split
  · rfl
  · split <;> rfl

@[simp] theorem reconfigured_pending (c : ConfigBlock) : (s.reconfigured c).pending = s.pending := by
  rw [(reconfigured_applied s c).frame]
  rfl

@[simp] theorem configAccepted_pending (c : ConfigBlock) : (configAccepted s c).pending = s.pending := by
  unfold configAccepted
  dsimp only
  split
  · exact (enterQuiescing_pending _).trans (reconfigured_pending s c)
  · exact reconfigured_pending s c

@[simp] theorem configRefused_pending : (configRefused s).pending = s.pending := by
  simp [configRefused]

end Pending

end Sys2Proof.Machine
end

section
/-! CERTIFICATES. Every command answers a next state, with the queue of commands as it was: first the commands of one lane,
which leave Device Control and the other lanes as well, and then the others (log 1, log 2, 95_what_each_step_holds.md). -/

namespace Sys2Proof.Machine

/-- The command answers a next state and has touched no part of another lane, of Device Control or of the queue. -/
def AnswersLocally (i : LaneId) (s : State) (r : Result) : Prop := ∃ t : State, r = .next t ∧ LaneLocal i s t

theorem LaneLocal.answers {i : LaneId} {s t : State} (h : LaneLocal i s t) : AnswersLocally i s (.next t) := ⟨t, rfl, h⟩

/-- The command answers a next state with the queue as it was. -/
def AnswersKeepingQueue (s : State) (r : Result) : Prop := ∃ t : State, r = .next t ∧ t.pending = s.pending

theorem AnswersKeepingQueue.next {s t : State} (h : t.pending = s.pending) : AnswersKeepingQueue s (.next t) := ⟨t, rfl, h⟩

theorem answers_same (s : State) : AnswersKeepingQueue s (.next s) := .next rfl

theorem AnswersLocally.keepingQueue {i : LaneId} {s : State} {r : Result} (h : AnswersLocally i s r) :
    AnswersKeepingQueue s r := by
  obtain ⟨t, ht, -, hp, -⟩ := h
  exact ⟨t, ht, hp⟩

section Lanes

variable (s : State) (i : LaneId)

theorem answersLocally_same : AnswersLocally i s (.next s) := (LaneLocal.rfl' i s).answers

theorem answersLocally_modLane (f : Lane → Lane) : AnswersLocally i s (.next (s.modLane i f)) :=
  (modLane_local s i f).answers

/-! ### The Loader Link -/

theorem execChunkSend_answers : AnswersLocally i s (execChunkSend i s) := by
  unfold execChunkSend
  split
  · exact (resolveStep_local (proceed_local s i)).answers
  · exact answersLocally_same s i

theorem execReadbackWriteEnd_answers (e : Epoch) (r : HostWrite) : AnswersLocally i s (execReadbackWriteEnd e i r s) := by
  unfold execReadbackWriteEnd
  split
  · split
    · exact (endedWriteOut_local s i).answers
    · exact answersLocally_same s i
  · split
    · split
      · exact (resolveStep_local (readbackWritten_local s i _ _)).answers
      · exact LaneLocal.answers (resolveStep_local (modLane_local s i _))
    · exact answersLocally_same s i

theorem execFrameSent_answers : AnswersLocally i s (execFrameSent i s) := by
  unfold execFrameSent
  split
  · exact answersLocally_same s i
  · exact answersLocally_same s i
  have hidle := modLane_local s i fun l => { l with tx := .idle }
  dsimp only
  split
  · exact (hidle.trans (modLane_local _ i _)).answers
  split
  · exact (hidle.trans (modLane_local _ i _)).answers
  split
  · exact (resolveStep_local (hidle.trans (proceed_local _ i))).answers
  · exact hidle.answers

theorem execResponseTimeout_answers : AnswersLocally i s (execResponseTimeout i s) := by
  unfold execResponseTimeout
  split
  · exact answersLocally_same s i
  split
  · exact answersLocally_same s i
  split
  · exact answersLocally_modLane s i _
  · exact (laneFault_local s i _).answers

theorem execFrameReceived_answers (chars : List Byte) : AnswersLocally i s (execFrameReceived i chars s) := by
  unfold execFrameReceived
  split
  · split
    · exact ((modLane_local s i _).trans (takeFrame_local _ i _ _ _)).answers
    all_goals exact answersLocally_same s i
  · exact answersLocally_same s i

theorem execFrameSpoiled_answers (chars : List Byte) (bad : Option RxChar) :
    AnswersLocally i s (execFrameSpoiled i chars bad s) := by
  unfold execFrameSpoiled
  split
  · exact (spoilFrame_local s i).answers
  · exact answersLocally_same s i

theorem execFrameGapTimeout_answers : AnswersLocally i s (execFrameGapTimeout i s) := by
  unfold execFrameGapTimeout
  split
  · exact (spoilFrame_local s i).answers
  · exact answersLocally_same s i

theorem execFrameCharacterReceived_answers (char : RxChar) : AnswersLocally i s (execFrameCharacterReceived i char s) := by
  unfold execFrameCharacterReceived
  split
  · exact answersLocally_modLane s i _
  · exact answersLocally_same s i

/-! ### The phases of ATTACH, and the current-limit trip -/

theorem execTrainingPatternSent_answers : AnswersLocally i s (execTrainingPatternSent i s) := by
  unfold execTrainingPatternSent
  split
  · exact answersLocally_modLane s i _
  all_goals exact answersLocally_same s i

theorem execTrainingCharacterReceived_answers (char : RxChar) :
    AnswersLocally i s (execTrainingCharacterReceived i char s) := by
  unfold execTrainingCharacterReceived
  split
  · split
    · exact answersLocally_modLane s i _
    · exact (openSession_local s i).answers
  · exact answersLocally_same s i

theorem execTrainingTimeout_answers : AnswersLocally i s (execTrainingTimeout i s) := by
  unfold execTrainingTimeout
  split
  · have hstopped := modLane_local s i fun l => { l with training := none }
    dsimp only
    split
    · exact (hstopped.trans (laneFault_local _ i _)).answers
    split
    · exact hstopped.answers
    split
    · exact (hstopped.trans (modLane_local _ i _)).answers
    · exact hstopped.answers
  · exact answersLocally_same s i

theorem execPowerSettleExpiry_answers : AnswersLocally i s (execPowerSettleExpiry i s) := by
  unfold execPowerSettleExpiry
  split
  · exact answersLocally_same s i
  · exact answersLocally_modLane s i _

theorem execCheckWaitExpiry_answers : AnswersLocally i s (execCheckWaitExpiry i s) := by
  unfold execCheckWaitExpiry
  split
  · exact answersLocally_same s i
  · exact answersLocally_modLane s i _

theorem execResetPulseExpiry_answers : AnswersLocally i s (execResetPulseExpiry i s) := by
  unfold execResetPulseExpiry
  split
  · split
    · exact answersLocally_modLane s i _
    · exact answersLocally_same s i
  · exact answersLocally_same s i

theorem execBootSettleExpiry_answers : AnswersLocally i s (execBootSettleExpiry i s) := by
  unfold execBootSettleExpiry
  split
  · split
    · dsimp only
      split
      · exact answersLocally_modLane s i _
      · exact ((modLane_local s i _).trans (modLane_local _ i _)).answers
    · exact answersLocally_same s i
  · exact answersLocally_same s i

theorem execRateGapExpiry_answers : AnswersLocally i s (execRateGapExpiry i s) := by
  unfold execRateGapExpiry
  split
  · exact answersLocally_same s i
  · dsimp only
    split
    · exact (resolveStep_local ((modLane_local s i _).trans (enterStep_local _ i _))).answers
    · exact answersLocally_modLane s i _

theorem execOvercurrentTrip_answers : AnswersLocally i s (execOvercurrentTrip i s) := by
  unfold execOvercurrentTrip
  split
  · exact (laneFault_local s i _).answers
  · exact answersLocally_same s i

end Lanes

/-! ### The Supply Monitor and the Staging Pool -/

section Others

variable (s : State)

theorem execSuperviseTimerExpiry_answers : AnswersKeepingQueue s (execSuperviseTimerExpiry s) := by
  unfold execSuperviseTimerExpiry
  split
  · exact .next rfl
  · exact answers_same s

theorem execConversionStart_answers : AnswersKeepingQueue s (execConversionStart s) := by
  unfold execConversionStart
  split
  · exact answers_same s
  split
  · exact .next rfl
  split
  · exact .next rfl
  · exact answers_same s

theorem execConversionEnd_answers (mv : Int) : AnswersKeepingQueue s (execConversionEnd mv s) := by
  unfold execConversionEnd
  split
  · exact answers_same s
  dsimp only
  split
  · exact .next rfl
  split
  · exact .next (takeCheck_pending _ _ _)
  · exact .next (takeSupervise_pending _ _ _)

theorem execStagingReadIssue_answers : AnswersKeepingQueue s (execStagingReadIssue s) := by
  unfold execStagingReadIssue
  split
  · exact answers_same s
  split
  · split
    · exact .next rfl
    · exact .next rfl
  · exact answers_same s

theorem execStagingReadEnd_answers (e : Epoch) (b : BlockId) (r : HostRead) :
    AnswersKeepingQueue s (execStagingReadEnd e b r s) := by
  unfold execStagingReadEnd
  split
  · exact .next rfl
  split
  · exact answers_same s
  split
  · exact .next (blockReadEnd_pending s b _ r)
  · exact answers_same s

/-! ### The Completion Writer -/

theorem execCompletionTransactionStart_answers : AnswersKeepingQueue s (execCompletionTransactionStart s) := by
  unfold execCompletionTransactionStart
  split
  · split
    · split
      · exact .next rfl
      · exact .next rfl
    · exact answers_same s
  · exact answers_same s

theorem execResultRecordWriteEnd_answers (e : Epoch) (i : LaneId) (r : HostWrite) :
    AnswersKeepingQueue s (execResultRecordWriteEnd e i r s) := by
  unfold execResultRecordWriteEnd
  split
  · split
    · dsimp only
      split
      all_goals exact .next (by simp)
    · exact answers_same s
  · exact answers_same s

theorem execCompletionRecordWriteEnd_answers (e : Epoch) (r : HostWrite) :
    AnswersKeepingQueue s (execCompletionRecordWriteEnd e r s) := by
  unfold execCompletionRecordWriteEnd
  split
  · split
    all_goals exact .next (by simp)
  · exact answers_same s

theorem execCoalescingDelayExpiry_answers : AnswersKeepingQueue s (execCoalescingDelayExpiry s) := by
  unfold execCoalescingDelayExpiry
  split
  · exact answers_same s
  · exact .next (by simp)

/-! ### The Intake Unit -/

theorem execIntakeArbiterChoice_answers : AnswersKeepingQueue s (execIntakeArbiterChoice s) := by
  unfold execIntakeArbiterChoice
  split
  · split
    · unfold chooseRing
      dsimp only
      split
      · exact .next (examine_pending _ _ _)
      · exact .next rfl
    · exact answers_same s
  · exact answers_same s

theorem execRecordReadEnd_answers (e : Epoch) (r : HostRead) : AnswersKeepingQueue s (execRecordReadEnd e r s) := by
  unfold execRecordReadEnd
  split
  · split
    · exact answers_same s
    split
    · exact .next (by simp)
    split
    · exact .next (takeRecord_pending s _ _)
    · exact answers_same s
  · exact answers_same s

theorem execLoadCredentialReadEnd_answers (e : Epoch) (r : HostRead) :
    AnswersKeepingQueue s (execLoadCredentialReadEnd e r s) := by
  unfold execLoadCredentialReadEnd
  split
  · split
    · split
      · exact answers_same s
      split
      · exact .next (by simp)
      split
      · exact answers_same s
      split
      all_goals exact .next (by simp)
    · exact answers_same s
  · exact answers_same s

theorem execListReadEnd_answers (e : Epoch) (n : SlotId) (r : HostRead) :
    AnswersKeepingQueue s (execListReadEnd e n r s) := by
  unfold execListReadEnd
  split
  · split
    · exact answers_same s
    split
    · split
      all_goals exact .next (by simp)
    split
    · exact answers_same s
    split
    · exact .next (retireAborted_pending s n _)
    dsimp only
    split
    all_goals exact .next (by simp)
  · exact answers_same s

/-! ### Device Control -/

theorem execEnable_answers (w : Bool) : AnswersKeepingQueue s (execEnable w s) := by
  unfold execEnable
  split
  all_goals exact .next (by simp)

theorem execSubmitWrite_answers (v : BitVec 32) : AnswersKeepingQueue s (execSubmitWrite v s) := by
  unfold execSubmitWrite
  dsimp only
  split
  · exact .next rfl
  · exact .next rfl
  all_goals exact .next (applySubmit_pending s _ _)

theorem execCqHeadWrite_answers (v : BitVec 32) : AnswersKeepingQueue s (execCqHeadWrite v s) := by
  unfold execCqHeadWrite
  split
  · exact .next rfl
  · exact .next rfl

theorem execConfigReadEnd_answers (e : Epoch) (r : HostRead) : AnswersKeepingQueue s (execConfigReadEnd e r s) := by
  unfold execConfigReadEnd
  split
  · split
    · exact .next (by simp)
    split
    · exact answers_same s
    split
    all_goals exact .next (by simp)
  · exact answers_same s

/-! ### Every command -/

/-- A command of one lane has its whole effect there and in the parts that the lanes share. -/
theorem exec_answersLocally {c : Instr} {i : LaneId} (h : laneOf c = some i) : AnswersLocally i s (exec c s) := by
  cases c with
  | chunkSend k => cases h; exact execChunkSend_answers s i
  | readbackWriteEnd e k r => cases h; exact execReadbackWriteEnd_answers s i e r
  | frameSent k => cases h; exact execFrameSent_answers s i
  | responseTimeout k => cases h; exact execResponseTimeout_answers s i
  | frameReceived k chars => cases h; exact execFrameReceived_answers s i chars
  | frameSpoiled k chars bad => cases h; exact execFrameSpoiled_answers s i chars bad
  | frameGapTimeout k => cases h; exact execFrameGapTimeout_answers s i
  | trainingPatternSent k => cases h; exact execTrainingPatternSent_answers s i
  | trainingCharacterReceived k char => cases h; exact execTrainingCharacterReceived_answers s i char
  | trainingTimeout k => cases h; exact execTrainingTimeout_answers s i
  | powerSettleExpiry k => cases h; exact execPowerSettleExpiry_answers s i
  | checkWaitExpiry k => cases h; exact execCheckWaitExpiry_answers s i
  | resetPulseExpiry k => cases h; exact execResetPulseExpiry_answers s i
  | bootSettleExpiry k => cases h; exact execBootSettleExpiry_answers s i
  | rateGapExpiry k => cases h; exact execRateGapExpiry_answers s i
  | overcurrentTrip k => cases h; exact execOvercurrentTrip_answers s i
  | frameCharacterReceived k char => cases h; exact execFrameCharacterReceived_answers s i char
  | _ => cases h

/-- A command that is not one lane's answers too, with the queue as it was. -/
theorem exec_answers_of_no_lane {c : Instr} (h : laneOf c = none) : AnswersKeepingQueue s (exec c s) := by
  cases c with
  | powerOnReset => exact .next rfl
  | softReset => exact .next rfl
  | enable w => exact execEnable_answers s w
  | halt => exact .next (by simp)
  | submitWrite v => exact execSubmitWrite_answers s v
  | cqHeadWrite v => exact execCqHeadWrite_answers s v
  | irqWrite v => exact .next rfl
  | statusWrite v => exact .next rfl
  | configAddrWrite half v => exact .next rfl
  | registerWriteIgnored o b v => exact answers_same s
  | configReadEnd e r => exact execConfigReadEnd_answers s e r
  | drainComplete => exact .next (by simp)
  | intakeArbiterChoice => exact execIntakeArbiterChoice_answers s
  | recordReadEnd e r => exact execRecordReadEnd_answers s e r
  | listReadEnd e n r => exact execListReadEnd_answers s e n r
  | loadCredentialReadEnd e r => exact execLoadCredentialReadEnd_answers s e r
  | holdingQueueEntry => exact .next (by simp)
  | completionTransactionStart => exact execCompletionTransactionStart_answers s
  | resultRecordWriteEnd e i r => exact execResultRecordWriteEnd_answers s e i r
  | completionRecordWriteEnd e r => exact execCompletionRecordWriteEnd_answers s e r
  | coalescingDelayExpiry => exact execCoalescingDelayExpiry_answers s
  | stagingReadIssue => exact execStagingReadIssue_answers s
  | stagingReadEnd e b r => exact execStagingReadEnd_answers s e b r
  | superviseTimerExpiry => exact execSuperviseTimerExpiry_answers s
  | conversionStart => exact execConversionStart_answers s
  | conversionEnd mv => exact execConversionEnd_answers s mv
  | _ => cases h

end Others

/-- Settles O2: a command of one lane by what it leaves outside its lane, and each of the others by its own effect. -/
theorem everyCommandAnswersAndKeepsQueue : Obligations.EveryCommandAnswersAndKeepsQueue := by
  intro c s
  cases h : laneOf c with
  | some i => exact (exec_answersLocally s h).keepingQueue
  | none => exact exec_answers_of_no_lane s h

end Sys2Proof.Machine
end

section
/-! CERTIFICATES. A step of the block: the command at the front of the queue, on the rest of it (log 1). -/

namespace Sys2Proof.Machine

/-- On a queue that is not empty, whatever else the state holds, a step is `exec` of the front command. -/
theorem step_of_pending_cons {s : State} {c : Instr} {rest : List Instr} (h : s.pending = c :: rest) :
    step s = exec c { s with pending := rest } := by
  unfold step
  rw [h]

/-- Settles O1: the queue written is `c :: rest`, and the command's own write of `rest` replaces it whole. -/
theorem stepCarriesOutFrontCommand : Obligations.StepCarriesOutFrontCommand := by
  intro c rest s
  exact step_of_pending_cons (s := { s with pending := c :: rest }) rfl

end Sys2Proof.Machine
end

section
/-! CERTIFICATES. The commands of one lane leave the other lanes and Device Control (R26, R30, R44). -/

namespace Sys2Proof.Machine

/-- Settles O54: what a lane's command answers is local to its lane. -/
theorem laneCommandsLeaveOtherLanes : Obligations.LaneCommandsLeaveOtherLanes := by
  intro c i s t hc ht
  obtain ⟨u, hu, hctl, -, hothers⟩ := exec_answersLocally s hc
  cases hu.symm.trans ht
  exact ⟨hctl, hothers⟩

end Sys2Proof.Machine
end

section
/-! CERTIFICATES. What a read of the register window shows: each field of a word at its place, and zeros elsewhere (R28,
R136, R143, R165, R166, R169). -/

namespace Sys2Proof.Machine

/-! ### The bits and fields of a 32-bit word -/

section Word

variable {x : Nat} (hx : x < 2 ^ 32)
include hx

/-- The field of `w` bits from bit `pos` on. -/
theorem toNat_field_ofNat (pos w : Nat) : ((BitVec.ofNat 32 x).extractLsb' pos w).toNat = x / 2 ^ pos % 2 ^ w := by
  rw [BitVec.extractLsb'_toNat, BitVec.toNat_ofNat, Nat.mod_eq_of_lt hx, Nat.shiftRight_eq_div_pow]

/-- Bit `k`, where the division by its weight leaves `b`. -/
theorem getLsbD_ofNat_of_div {k : Nat} {b : Bool} (h : x / 2 ^ k % 2 = b.toNat) : (BitVec.ofNat 32 x).getLsbD k = b := by
  rw [BitVec.getLsbD, BitVec.toNat_ofNat, Nat.mod_eq_of_lt hx, Nat.testBit_eq_decide_div_mod_eq, h]
  cases b <;> rfl

/-- The bits above a number are 0. -/
theorem getLsbD_ofNat_above {w k : Nat} (hw : x < 2 ^ w) (hk : w ≤ k) : (BitVec.ofNat 32 x).getLsbD k = false :=
  getLsbD_ofNat_of_div hx (by rw [Nat.div_eq_of_lt (hw.trans_le (Nat.pow_le_pow_right (by decide) hk))]; rfl)

end Word

theorem bitAt_eq_mul (b : Bool) (pos : Nat) : bitAt b pos = b.toNat * 2 ^ pos := by cases b <;> simp [bitAt]

/-! ### STATUS -/

theorem DeviceState.code_le (d : DeviceState) : d.code ≤ 5 := by cases d <;> decide

theorem Cause.code_le (c : Cause) : c.code ≤ 4 := by cases c <;> decide

theorem slotsInUse_le (s : State) : slotsInUse s ≤ 32 := List.countP_le_length

/-- The slots in use are the slots that are not FREE (R54). -/
theorem slotsInUse_eq_length (s : State) : slotsInUse s = (allSlots.filter (fun n => (s.slot n).isSome)).length :=
  List.countP_eq_length_filter

/-- STATUS as the sum of its five fields at their weights (R166). -/
theorem statusWord_eq (s : State) : statusWord s = BitVec.ofNat 32 (s.ctl.device.code + s.ctl.cause.code * 16
    + s.ctl.submitError.toNat * 256 + s.ctl.headError.toNat * 512 + slotsInUse s * 65536) := by
  rw [statusWord, bitAt_eq_mul, bitAt_eq_mul]
  norm_num

theorem statusWord_fields (s : State) :
    ((statusWord s).extractLsb' 0 3).toNat = s.ctl.device.code ∧
      ((statusWord s).extractLsb' 4 3).toNat = s.ctl.cause.code ∧
      (statusWord s).getLsbD 8 = s.ctl.submitError ∧ (statusWord s).getLsbD 9 = s.ctl.headError ∧
      ((statusWord s).extractLsb' 16 6).toNat = slotsInUse s ∧
      ∀ k : Nat, k = 3 ∨ k = 7 ∨ (10 ≤ k ∧ k < 16) ∨ 22 ≤ k → (statusWord s).getLsbD k = false := by
  have hd := s.ctl.device.code_le
  have hc := s.ctl.cause.code_le
  have hs := Bool.toNat_le s.ctl.submitError
  have hh := Bool.toNat_le s.ctl.headError
  have hn := slotsInUse_le s
  rw [statusWord_eq]
  generalize slotsInUse s = n at *
  have hx : s.ctl.device.code + s.ctl.cause.code * 16 + s.ctl.submitError.toNat * 256 + s.ctl.headError.toNat * 512
      + n * 65536 < 2 ^ 22 := by omega
  have hx32 := hx.trans (show 2 ^ 22 < 2 ^ 32 by decide)
  refine ⟨?_, ?_, getLsbD_ofNat_of_div hx32 (by omega), getLsbD_ofNat_of_div hx32 (by omega), ?_, fun k hk => ?_⟩
  · rw [toNat_field_ofNat hx32]; omega
  · rw [toNat_field_ofNat hx32]; omega
  · rw [toNat_field_ofNat hx32]; omega
  · rcases hk with rfl | rfl | ⟨hlow, hhigh⟩ | hk
    · exact getLsbD_ofNat_of_div hx32 (by simp only [Bool.toNat_false]; omega)
    · exact getLsbD_ofNat_of_div hx32 (by simp only [Bool.toNat_false]; omega)
    · refine getLsbD_ofNat_of_div hx32 ?_
      simp only [Bool.toNat_false]
      interval_cases k <;> omega
    · exact getLsbD_ofNat_above hx32 hx hk

/-! ### LANE_STATE -/

theorem LaneState.code_lt (st : LaneState) : st.code < 16 := by cases st <;> decide

/-- The sum of `n` digits of four bits each, digit `k` at bit `4 k`. -/
def digitSum (f : Nat → Nat) (n : Nat) : Nat := (List.range n).foldl (fun acc k => acc + f k * 2 ^ (4 * k)) 0

theorem digitSum_succ (f : Nat → Nat) (n : Nat) : digitSum f (n + 1) = digitSum f n + f n * 2 ^ (4 * n) := by
  rw [digitSum, List.range_succ, List.foldl_append]
  rfl

section Digits

variable {f : Nat → Nat} (hf : ∀ k, f k < 16)
include hf

theorem digitSum_lt (n : Nat) : digitSum f n < 2 ^ (4 * n) := by
  induction n with
  | zero => exact Nat.one_pos
  | succ n ih =>
    have hle : f n * 2 ^ (4 * n) ≤ 15 * 2 ^ (4 * n) := Nat.mul_le_mul_right _ (Nat.le_of_lt_succ (hf n))
    rw [digitSum_succ, Nat.mul_succ, Nat.pow_add]
    omega

/-- Every digit is read back at its place. -/
theorem digitSum_digit {n k : Nat} (hk : k < n) : digitSum f n / 2 ^ (4 * k) % 2 ^ 4 = f k := by
  induction n with
  | zero => exact absurd hk (Nat.not_lt_zero k)
  | succ n ih =>
    rw [digitSum_succ]
    rcases Nat.lt_succ_iff_lt_or_eq.mp hk with hlt | rfl
    · obtain ⟨m, rfl⟩ : ∃ m, n = k + 1 + m := Nat.exists_eq_add_of_lt hlt |>.imp fun m hm => by omega
      have hpow : f (k + 1 + m) * 2 ^ (4 * (k + 1 + m)) = 2 ^ (4 * k) * (2 ^ 4 * (f (k + 1 + m) * 2 ^ (4 * m))) := by ring
      rw [hpow, Nat.add_mul_div_left _ _ (Nat.two_pow_pos _), Nat.add_mul_mod_self_left, ih hlt]
    · rw [Nat.add_mul_div_right _ _ (Nat.two_pow_pos _), Nat.div_eq_of_lt (digitSum_lt hf k), Nat.zero_add]
      exact Nat.mod_eq_of_lt (hf k)

end Digits

/-- The code that LANE_STATE shows for the lane of a number; a number with no lane shows 0. -/
def laneCode (s : State) (k : Nat) : Nat := if h : k < 16 then s.lanes[k].state.code else 0

theorem laneCode_lt (s : State) (k : Nat) : laneCode s k < 16 := by
  unfold laneCode
  split
  · exact LaneState.code_lt _
  · decide

/-- The low and the high word of LANE_STATE show eight lanes each, four bits a lane (R28, R169). -/
theorem laneStateWord_field (s : State) (first : Nat) {k : Nat} (hk : k < 8) :
    ((laneStateWord s first).extractLsb' (4 * k) 4).toNat = laneCode s (first + k) := by
  have hcode : ∀ m, (fun m => laneCode s (first + m)) m < 16 := fun m => laneCode_lt s (first + m)
  exact (toNat_field_ofNat (digitSum_lt hcode 8) (4 * k) 4).trans (digitSum_digit hcode hk)

/-! ### IRQ -/

theorem irqWord_bits (s : State) : (irqWord s).getLsbD 0 = s.ctl.irq.cq ∧ (irqWord s).getLsbD 1 = s.ctl.irq.fault ∧
    (irqWord s).getLsbD 2 = s.ctl.irq.halt ∧ ∀ k : Nat, 3 ≤ k → (irqWord s).getLsbD k = false := by
  have hc := Bool.toNat_le s.ctl.irq.cq
  have hf := Bool.toNat_le s.ctl.irq.fault
  have hh := Bool.toNat_le s.ctl.irq.halt
  rw [irqWord, bitAt_eq_mul, bitAt_eq_mul, bitAt_eq_mul]
  have hx : s.ctl.irq.cq.toNat * 2 ^ 0 + s.ctl.irq.fault.toNat * 2 ^ 1 + s.ctl.irq.halt.toNat * 2 ^ 2 < 2 ^ 3 := by omega
  have hx32 := hx.trans (show 2 ^ 3 < 2 ^ 32 by decide)
  exact ⟨getLsbD_ofNat_of_div hx32 (by omega), getLsbD_ofNat_of_div hx32 (by omega), getLsbD_ofNat_of_div hx32 (by omega),
    fun k hk => getLsbD_ofNat_above hx32 hx hk⟩

/-! ### The register window -/

/-- An offset that the table does not list reads 0 (R165). -/
theorem readWord_unlisted (s : State) {offset : Nat}
    (h : offset ∉ [0x00, 0x04, 0x08, 0x0C, 0x10, 0x14, 0x18, 0x20, 0x24]) : readWord s offset = 0 := by
  simp only [List.mem_cons, List.not_mem_nil, or_false, not_or] at h
  obtain ⟨h0, h4, -, hC, -, h14, h18, h20, h24⟩ := h
  simp [readWord, h0, h4, hC, h14, h18, h20, h24]

/-- Settles O8: STATUS, LANE_STATE, the other registers, and the codes of 11.3. -/
theorem statusAndLaneStateRead : Obligations.StatusAndLaneStateRead := by
  refine ⟨fun s => ?_, fun s i => ?_, fun s => ⟨irqWord_bits s, fun hhead => ?_, rfl, rfl, rfl, rfl,
    fun offset => readWord_unlisted s⟩, by decide, by decide, by decide⟩
  · rw [← slotsInUse_eq_length]
    exact statusWord_fields s
  · split
    next hlow =>
      refine (laneStateWord_field s 0 (Nat.mod_lt i.val (by decide))).trans ?_
      rw [Nat.zero_add, Nat.mod_eq_of_lt hlow]
      exact dif_pos i.isLt
    next hhigh =>
      refine (laneStateWord_field s 8 (Nat.mod_lt i.val (by decide))).trans ?_
      rw [show 8 + i.val % 8 = i.val by omega]
      exact dif_pos i.isLt
  · have hhead32 := hhead.trans (show 2 ^ 16 < 2 ^ 32 by decide)
    refine ⟨?_, fun k hk => getLsbD_ofNat_above hhead32 hhead hk⟩
    refine (toNat_field_ofNat hhead32 0 16).trans ?_
    rw [Nat.pow_zero, Nat.div_one, Nat.mod_eq_of_lt hhead]

end Sys2Proof.Machine
end

section
/-! ATTACH. The HELLO, the rate decision and the credential step: what each finds, and what goes out (R37 to R40, R100,
R101, R103, R106). -/

namespace Sys2Proof.Machine

/-! ### The HELLO -/

/-- Lane `l` once a HELLO has answered its IDENTIFY and the record that it carries is stored (R37, R39). -/
def Lane.identified (l : Lane) (d : Identity) : Lane :=
  { l.answered with identity := some d, unlocked := !d.credentialRequired }

section Hello

variable {s : State} {i : LaneId} {n : SlotId} {j : Job} {q : Request} {chars payload : List Byte}

/-- The first HELLO has no record to differ from (R39). -/
theorem classChanged_of_step_ne {l : Lane} (h : l.step ≠ .attachIdentifyAgain) (payload : List Byte) :
    classChanged l payload = false := by
  simp [classChanged, h]

theorem classChanged_of_same_class {l : Lane}
    (h : l.identity.map Identity.deviceClass = some (parseIdentity payload).deviceClass) :
    classChanged l payload = false := by
  simp [classChanged, h]

/-- A HELLO of the right form is stored whole, and the ATTACH goes on from there (R37, R39). -/
theorem State.working.exec_hello (hw : s.working i n j q) (hf : s.completes i chars q.seq 0x83 payload)
    (hk : q.kind = .identify) (hgood : goodForm q (s.lane i).rate payload = true)
    (hst : (s.lane i).step = .attachIdentify ∨ (s.lane i).step = .attachIdentifyAgain)
    (hclass : classChanged (s.lane i) payload = false) (hpin : (s.lane i).pinned = none) :
    exec (.frameReceived i chars) s = .next (resolveStep i (afterAnswer
      (s.setLane i ((s.lane i).identified (parseIdentity payload))) i n j { s.lane i with rx := none } q payload)) := by
  have h := hw.engaged
  have hcode : (0x83 : Byte) = q.kind.goodCode := by rw [hk]; rfl
  have hgood' : goodForm q ((s.frameTaken i).lane i).rate payload = true := by rw [State.frameTaken_lane]; exact hgood
  have hclass' : classChanged ((s.frameTaken i).lane i) payload = false := by rw [State.frameTaken_lane]; exact hclass
  have heffect : answerEffect (s.acked i) i n j q payload
      = s.setLane i ((s.lane i).identified (parseIdentity payload)) := by
    rw [State.acked_of_unpinned hpin]
    rcases hst with hst | hst
    all_goals
      have hstep : (s.lane i).answered.step = _ := hst
      simp [answerEffect, hstep, State.modLane, Lane.storeIdentity, Lane.identified]
  obtain ⟨-, -, -, -, ha, hi, -, -⟩ := hw
  rw [hcode] at hf
  rw [h.exec_frameReceived hf, takeFrame_goodAnswer h.outstanding_taken h.currentJob_taken (classify_good hgood')
    fun _ => hclass', goodAnswer_unmarked ha hi, ← State.acked, heffect, State.frameTaken_lane]

/-- The answered lane of a HELLO may start its next request where TXD is idle, outside device FAULT (R21, R33). -/
theorem State.working.mayRequest_identified (hw : s.working i n j q) (htx : (s.lane i).tx = .idle)
    (hd : s.ctl.device ≠ .fault) (d : Identity) (st : Step) :
    (s.setLane i { (s.lane i).identified d with step := st }).mayRequest i :=
  hw.mayRequest (x := { (s.lane i).identified d with step := st }) htx hd rfl rfl rfl rfl (State.lane_setLane_self s i _) rfl

end Hello

/-! ### The rate decision -/

section RateDecision

variable {u : State} {i : LaneId} {p : AttachParams} {d : Identity}

/-- A target rate that is the current one leads to the unlock decision (R38, R40). -/
theorem rateDecision_sameRate (hid : (u.lane i).identity = some d) (h : p.targetRate = (u.lane i).rate) :
    rateDecision u i p = unlockDecision u i p := by
  simp [rateDecision, hid, h]

/-- Another target rate that the record does not support ends the ATTACH (R38). -/
theorem rateDecision_unsupported (hid : (u.lane i).identity = some d) (h : p.targetRate ≠ (u.lane i).rate)
    (hrates : d.rates.getLsbD p.targetRate.val = false) :
    rateDecision u i p = (u, some (Verdict.plain .rateUnsupported)) := by
  unfold rateDecision
  rw [hid]
  dsimp only
  rw [if_neg h, if_pos (by rw [hrates]; rfl)]

/-- Another target rate that the record supports is asked for by SET_RATE (R38). -/
theorem rateDecision_setRate (hid : (u.lane i).identity = some d) (h : p.targetRate ≠ (u.lane i).rate)
    (hrates : d.rates.getLsbD p.targetRate.val = true) : rateDecision u i p =
      (send (u.modLane i (fun l => { l with step := .attachSetRate })) i .setRate [BitVec.ofNat 8 p.targetRate.val],
        none) := by
  unfold rateDecision
  rw [hid]
  dsimp only
  rw [if_neg h, if_neg (by rw [hrates]; nofun)]

end RateDecision

/-- Settles O47: the rate decision of the first HELLO, and the gap that the ACK to SET_RATE opens. -/
theorem helloAndTheRateChange : Obligations.HelloAndTheRateChange := by
  refine ⟨?_, ?_⟩
  · intro s i n j q p chars payload hw hf hk hst hp hgood hne hpin d stored
    obtain ⟨u, hu⟩ : ∃ u : State, u = s.setLane i stored := ⟨_, rfl⟩
    have hlane : u.lane i = stored := by rw [hu, State.lane_setLane_self]
    have hid : (u.lane i).identity = some d := by rw [hlane]
    have hrate : p.targetRate ≠ (u.lane i).rate := by rw [hlane]; exact hne
    have hexec : exec (.frameReceived i chars) s = .next (resolveStep i (rateDecision u i p)) := by
      rw [hw.exec_hello hf hk hgood (.inl hst) (classChanged_of_step_ne (by rw [hst]; nofun) payload) hpin, hu]
      simp only [afterAnswer, hst, hp]
      rfl
    refine ⟨fun hrates htx hdev => ?_, fun hrates => ?_⟩
    · have hmay := hw.mayRequest_identified htx hdev d .attachSetRate
      have hstep : u.modLane i (fun l => { l with step := .attachSetRate })
          = s.setLane i { (s.lane i).identified d with step := .attachSetRate } := by
        rw [State.modLane, hlane, hu, State.setLane_setLane]
        rfl
      rw [hexec, rateDecision_setRate hid hrate hrates, resolveStep_none, hstep, send_of_mayRequest hmay,
        State.lane_setLane_self, State.setLane_setLane]
      rfl
    · rw [hexec, rateDecision_unsupported hid hrate hrates]
      have hend := resolveStep_endsOnlyJob (s := s) (u := u) (by rw [hu]; exact modLane_local s i fun _ => stored)
        (by rw [hlane]; exact hw.queue) (by rw [hu]; exact hw.slot) hw.unsettled (Verdict.plain .rateUnsupported)
      refine ⟨_, rfl, hlane ▸ hend.lane, ?_, hend.ctl, hend.others⟩
      rw [outcomeOf_eq_resultOf]
      exact congrArg (Option.map LaneResult.outcome) hend.result
  · intro s i n j q p chars hw hf hk hst hp hpin
    have hgood : goodForm q (s.lane i).rate [] = true := by rw [goodForm_iff, hk]
    have hcode : (0x81 : Byte) = q.kind.goodCode := by rw [hk]; rfl
    have hstep : (s.lane i).answered.step = .attachSetRate := hst
    rw [hcode] at hf
    refine ⟨_, hw.exec_good hf hgood (by rw [hk]; nofun), ?_⟩
    simp only [afterAnswer, hst, resolveStep_none]
    rw [State.acked_of_unpinned hpin]
    simp only [answerEffect, State.lane_setLane_self, hstep, hp]
    rw [State.modLane, State.lane_setLane_self, State.setLane_setLane, State.lane_setLane_self]
    exact ⟨rfl, by simp [Lane.receiving]⟩

end Sys2Proof.Machine
end

section
/-! CERTIFICATES. The unlock decision and the credential step, at a HELLO and at the end of what it waited for (R39, R40,
R69, R100, R101, R103, R106). -/

namespace Sys2Proof.Machine

/-! ### Resolving a selector -/

/-- Entry `e` is one that the selector may resolve to for the record's device class (R100). -/
def State.resolves (s : State) (p : AttachParams) (d : Identity) (e : CredId) : Prop :=
  (s.cred e).valid = true ∧
    (p.selector = .entry e ∨
      (p.selector = .auto ∧ (s.cred e).mask &&& d.deviceClass = (s.cred e).mask &&& (s.cred e).cls))

section Resolve

variable {s : State} {p : AttachParams} {d : Identity}

theorem resolve_eq_none (h : ∀ e : CredId, ¬ s.resolves p d e) : resolve s p.selector d.deviceClass = none := by
  cases hsel : p.selector with
  | none => rfl
  | entry n => exact if_neg fun hvalid => h n ⟨hvalid, .inl hsel⟩
  | auto =>
    refine List.find?_eq_none.mpr fun e _ he => h e ?_
    simp only [Bool.and_eq_true, beq_iff_eq] at he
    exact ⟨he.1, .inr ⟨hsel, he.2⟩⟩

/-- The selector resolves to the lowest entry that it may resolve to (R100). -/
theorem resolve_eq_some {e : CredId} (h : s.resolves p d e) (hfirst : ∀ b : CredId, b < e → ¬ s.resolves p d b) :
    resolve s p.selector d.deviceClass = some e := by
  obtain ⟨hvalid, hsel | ⟨hsel, hmask⟩⟩ := h
  · rw [hsel]
    exact if_pos hvalid
  · rw [hsel]
    unfold resolve
    dsimp only
    rw [List.find?_eq_some_iff_getElem]
    refine ⟨by simp [hvalid, hmask], e.val, by simp [allCreds], by simp [allCreds], fun m hm => ?_⟩
    have hno := hfirst ⟨m, hm.trans e.isLt⟩ hm
    simp only [State.resolves, hsel, true_and, not_and, not_or] at hno
    simpa [allCreds, or_iff_not_imp_left] using fun hv => (hno hv).2

end Resolve

/-! ### The credential step -/

section CredentialStep

variable {u : State} {i : LaneId} {sel : Selector} {d : Identity} {e : CredId}

theorem credentialStep_fault (hd : u.ctl.device = .fault) : credentialStep u i sel = (u, none) := if_pos hd

section Entered

variable (hdev : u.ctl.device ≠ .fault) (hid : (u.lane i).identity = some d)
include hdev hid

/-- With no entry the outcome is NO_CREDENTIAL (R100). -/
theorem credentialStep_unresolved (h : resolve u sel d.deviceClass = none) :
    credentialStep u i sel = (u, some (Verdict.plain .noCredential)) := by
  simp [credentialStep, hdev, hid, h]

/-- The attempts that the reserve keeps are not spent (R103). -/
theorem credentialStep_reserved (h : resolve u sel d.deviceClass = some e) (hr : d.attempts.toNat ≤ u.reserve) :
    credentialStep u i sel = (u, some (Verdict.plain .authReserve)) := by
  simp [credentialStep, hdev, hid, h, hr]

/-- The entry is pinned and UNLOCK goes out in one happening (R101, R103). -/
theorem credentialStep_sends (h : resolve u sel d.deviceClass = some e) (hr : u.reserve < d.attempts.toNat)
    (hcan : canSend u i = true) : credentialStep u i sel =
      ((u.modCred e (fun c => { c with pins := c.pins + 1 })).setLane i
        (Lane.withRequest { u.lane i with pinned := some e } .unlock ((u.cred e).bytes.take (u.cred e).length)), none) := by
  obtain ⟨v, hv⟩ : ∃ v : State, v = (u.modCred e (fun c => { c with pins := c.pins + 1 })).modLane i
      (fun l => { l with pinned := some e }) := ⟨_, rfl⟩
  have hlane : v.lane i = { u.lane i with pinned := some e } := by rw [hv, State.lane_modLane_self]; rfl
  have hcan' : canSend v i = true := by
    rw [canSend_iff] at hcan ⊢
    rw [hlane, hv]
    exact hcan
  have hstep : credentialStep u i sel = (send v i .unlock ((u.cred e).bytes.take (u.cred e).length), none) := by
    simp [credentialStep, hdev, hid, h, Nat.not_le.mpr hr, hcan, hv]
  rw [hstep, send_of_canSend hcan', hlane, hv, State.modLane, State.setLane_setLane]

/-- With TXD busy or a readback write in flight the step waits after its checks (R69; log 33). -/
theorem credentialStep_waits (h : resolve u sel d.deviceClass = some e) (hr : u.reserve < d.attempts.toNat)
    (hcan : canSend u i = false) : credentialStep u i sel = (u, none) := by
  simp [credentialStep, hdev, hid, h, Nat.not_le.mpr hr, hcan]

end Entered

end CredentialStep

/-! ### The unlock decision -/

section UnlockDecision

variable {u : State} {i : LaneId} {p : AttachParams} {d : Identity}

/-- With nothing to unlock, or no credential to offer, the ATTACH is done (R40). -/
theorem unlockDecision_ok (hid : (u.lane i).identity = some d) (h : d.credentialRequired = false ∨ p.selector = .none) :
    unlockDecision u i p = (u, some (Verdict.plain .ok)) := by
  unfold unlockDecision
  rw [hid]
  dsimp only
  rcases h with h | h
  · rw [if_pos (by rw [h]; rfl)]
  · rw [h]
    exact ite_self _

/-- Else the credential step is the step in hand (R40, R103). -/
theorem unlockDecision_credential (hid : (u.lane i).identity = some d) (hreq : d.credentialRequired = true)
    (hsel : p.selector ≠ .none) : unlockDecision u i p =
      credentialStep (u.modLane i (fun l => { l with step := .attachCredential })) i p.selector := by
  unfold unlockDecision
  rw [hid]
  dsimp only
  rw [if_neg (by rw [hreq]; nofun)]
  cases h : p.selector with
  | none => exact absurd h hsel
  | entry _ => rfl
  | auto => rfl

end UnlockDecision

/-! ### What a command makes of it -/

/-- Command `c` ends the job of slot `n` on lane `i`, which stands as `l`, with outcome `o`; the credentials, Device
Control and the other lanes stand (R56). -/
def State.endsWith (s : State) (i : LaneId) (n : SlotId) (c : Instr) (l : Lane) (o : LaneOutcome) : Prop :=
  ∃ t : State, exec c s = .next t ∧ t.outcomeOf n i = some o ∧ t.lane i = { l with queue := [], step := .none } ∧
    t.creds = s.creds ∧ t.ctl = s.ctl ∧ ∀ k : LaneId, k ≠ i → t.lane k = s.lane k

/-- Command `c` makes the credential step on lane `i`, which stands as `l` with the record `d` (R100, R103, R106). -/
def State.makesCredentialStep (s : State) (i : LaneId) (n : SlotId) (p : AttachParams) (c : Instr) (l : Lane)
    (d : Identity) : Prop :=
  (s.ctl.device = .fault → exec c s = .next (s.setLane i { l with step := .attachCredential })) ∧
  ∀ k : Settings, s.ctl.inForce = some k → s.ctl.device ≠ .fault →
    ((∀ e : CredId, ¬ s.resolves p d e) → s.endsWith i n c l .noCredential) ∧
    ∀ e : CredId, s.resolves p d e → (∀ b : CredId, b < e → ¬ s.resolves p d b) →
      (d.attempts.toNat ≤ k.reserve → s.endsWith i n c l .authReserve) ∧
      (k.reserve < d.attempts.toNat → l.tx = .idle → l.readback = none → exec c s = .next { s with
        creds := s.creds.set e.val { s.cred e with pins := (s.cred e).pins + 1 }
        lanes := s.lanes.set i.val (Lane.withRequest { l with step := .attachCredential, pinned := some e } .unlock
          ((s.cred e).bytes.take (s.cred e).length)) }) ∧
      (k.reserve < d.attempts.toNat → l.tx ≠ .idle ∨ l.readback ≠ none →
        exec c s = .next (s.setLane i { l with step := .attachCredential }))

section Command

variable {s : State} {i : LaneId} {n : SlotId} {j : Job} {p : AttachParams} {c : Instr} {l : Lane} {d : Identity}
  (hqueue : l.queue = [n]) (hslot : s.slot n = some j) (hres : j.results[i.val] = none)
include hqueue hslot hres

/-- A verdict on the lane's only job ends it with its outcome, in whatever step the lane stood (R56). -/
theorem endsWith_of_verdict {st : Step} {v : Verdict}
    (hexec : exec c s = .next (resolveStep i (s.setLane i { l with step := st }, some v))) :
    s.endsWith i n c l v.outcome := by
  obtain ⟨u, hu⟩ : ∃ u : State, u = s.setLane i { l with step := st } := ⟨_, rfl⟩
  have hlane : u.lane i = { l with step := st } := by rw [hu, State.lane_setLane_self]
  have hq : (u.lane i).queue = [n] := by rw [hlane]; exact hqueue
  have hj : u.slot n = some j := by rw [hu]; exact hslot
  have hend := resolveStep_endsOnlyJob (s := s) (u := u) (by rw [hu]; exact modLane_local s i fun _ => { l with step := st })
    hq hj hres v
  rw [← hu] at hexec
  refine ⟨_, hexec, ?_, ?_, ?_, hend.ctl, hend.others⟩
  · rw [outcomeOf_eq_resultOf]
    exact congrArg (Option.map LaneResult.outcome) hend.result
  · rw [hend.lane, hlane]
  · rw [resolveStep_onlyJob hq hj, closeJob_creds, hu]
    rfl

/-- A command that leads to the credential step of a READY lane makes it (R100, R101, R103, R106). -/
theorem makesCredentialStep_of_exec (hid : l.identity = some d) (hready : l.state = .ready) (ho : l.outstanding = none)
    (hexec : exec c s = .next (resolveStep i (credentialStep (s.setLane i { l with step := .attachCredential }) i p.selector))) :
    s.makesCredentialStep i n p c l d := by
  obtain ⟨u, hu⟩ : ∃ u : State, u = s.setLane i { l with step := .attachCredential } := ⟨_, rfl⟩
  have hlane : u.lane i = { l with step := .attachCredential } := by rw [hu, State.lane_setLane_self]
  have hid' : (u.lane i).identity = some d := by rw [hlane]; exact hid
  have hresolve : ∀ cls, resolve u p.selector cls = resolve s p.selector cls := fun cls => by rw [hu]; rfl
  have hctl : u.ctl = s.ctl := by rw [hu]; rfl
  rw [← hu] at hexec
  refine ⟨fun hd => ?_, fun k hk hd => ⟨fun hnone => ?_, fun e he hfirst => ⟨fun hle => ?_, fun hlt htx hrb => ?_,
    fun hlt hbusy => ?_⟩⟩⟩
  · rw [hexec, credentialStep_fault (hctl ▸ hd), resolveStep_none, hu]
  all_goals
    have hdev : u.ctl.device ≠ .fault := hctl ▸ hd
    have hreserve : u.reserve = k.reserve := by rw [State.reserve, hctl, hk]
  · rw [credentialStep_unresolved hdev hid' ((hresolve _).trans (resolve_eq_none hnone)), hu] at hexec
    exact endsWith_of_verdict hqueue hslot hres hexec
  all_goals
    have hsome : resolve u p.selector d.deviceClass = some e := (hresolve _).trans (resolve_eq_some he hfirst)
  · rw [credentialStep_reserved hdev hid' hsome (by rw [hreserve]; exact hle), hu] at hexec
    exact endsWith_of_verdict hqueue hslot hres hexec
  · have hcan : canSend u i = true := (canSend_iff u i).mpr ⟨hdev, by rw [hlane]; exact ho, by rw [hlane]; exact htx,
      by rw [hlane]; exact hrb, .inl (by rw [hlane]; exact hready)⟩
    rw [hexec, credentialStep_sends hdev hid' hsome (by rw [hreserve]; exact hlt) hcan, resolveStep_none, hlane, hu]
    simp [State.setLane, State.modCred, State.cred]
  · have hcan : canSend u i = false := by
      refine Bool.eq_false_iff.mpr fun h => ?_
      obtain ⟨-, -, htx, hrb, -⟩ := (canSend_iff u i).mp h
      rw [hlane] at htx hrb
      exact hbusy.elim (· htx) (· hrb)
    rw [hexec, credentialStep_waits hdev hid' hsome (by rw [hreserve]; exact hlt) hcan, resolveStep_none, hu]

end Command

/-! ### The step that has waited -/

section Waited

variable {s : State} {i : LaneId} {n : SlotId} {j : Job} {p : AttachParams}

theorem proceed_credential (hj : currentJob s i = some (n, j)) (hst : (s.lane i).step = .attachCredential)
    (hp : j.spec.params = .attach p) : proceed s i = credentialStep s i p.selector := by
  simp [proceed, hj, hst, hp]

/-- A frame whose request has ended has gone out on a READY lane: the step in hand goes on (R1, R25; log 10). -/
theorem exec_frameSent_ready {bytes : List Byte} (htx : (s.lane i).tx = .frame bytes false)
    (hready : (s.lane i).state = .ready) : exec (.frameSent i) s =
      .next (resolveStep i (proceed (s.setLane i { s.lane i with tx := .idle }) i)) := by
  simp [exec, execFrameSent, htx, hready, State.modLane]

end Waited

/-- The first HELLO at the current rate, or the second HELLO, leads to the unlock decision (R39, R40). -/
theorem State.working.exec_unlockDecision {s : State} {i : LaneId} {n : SlotId} {j : Job} {q : Request} {p : AttachParams}
    {chars payload : List Byte} (hw : s.working i n j q) (hp : j.spec.params = .attach p) (hpin : (s.lane i).pinned = none)
    (hf : s.completes i chars q.seq 0x83 payload) (hk : q.kind = .identify)
    (hgood : goodForm q (s.lane i).rate payload = true)
    (hst : ((s.lane i).step = .attachIdentify ∧ p.targetRate = (s.lane i).rate) ∨
      ((s.lane i).step = .attachIdentifyAgain ∧
        (s.lane i).identity.map Identity.deviceClass = some (parseIdentity payload).deviceClass)) :
    exec (.frameReceived i chars) s = .next (resolveStep i (unlockDecision
      (s.setLane i ((s.lane i).identified (parseIdentity payload))) i p)) := by
  rcases hst with ⟨hst, hrate⟩ | ⟨hst, hclass⟩
  · rw [hw.exec_hello hf hk hgood (.inl hst) (classChanged_of_step_ne (by rw [hst]; nofun) payload) hpin,
      ← rateDecision_sameRate (d := parseIdentity payload) (by rw [State.lane_setLane_self]; rfl)
        (by rw [State.lane_setLane_self]; exact hrate)]
    simp only [afterAnswer, hst, hp]
  · rw [hw.exec_hello hf hk hgood (.inr hst) (classChanged_of_same_class hclass) hpin]
    simp only [afterAnswer, hst, hp]

/-- Settles O48: the decision at a HELLO, and the step made again at the end of a frame or of a readback write. -/
theorem unlockDecisionAndCredentialStep : Obligations.UnlockDecisionAndCredentialStep := by
  intro s i n j p hp hpin ends resolves credential
  refine ⟨?_, fun d hready ho hst hqueue hslot hres hid hsel => ?_⟩
  · intro q chars payload hw hf hk hgood hst d l
    have hexec := hw.exec_unlockDecision hp hpin hf hk hgood hst
    have hid : ((s.setLane i ((s.lane i).identified d)).lane i).identity = some d := by
      rw [State.lane_setLane_self]; rfl
    refine ⟨fun h => ?_, fun hreq hsel => ?_⟩
    · rw [unlockDecision_ok hid h] at hexec
      exact endsWith_of_verdict (l := l) (st := l.step) hw.queue hw.slot hw.unsettled hexec
    · rw [unlockDecision_credential hid hreq hsel, State.modLane, State.lane_setLane_self, State.setLane_setLane] at hexec
      exact makesCredentialStep_of_exec (l := l) hw.queue hw.slot hw.unsettled rfl rfl rfl hexec
  · have hagain : ∀ (c : Instr) (l : Lane), l.queue = [n] → l.step = .attachCredential → l.identity = some d →
        l.state = .ready → l.outstanding = none → exec c s = .next (resolveStep i (proceed (s.setLane i l) i)) →
        credential c l d := by
      intro c l hq hstep hidentity hstate hnone hexec
      have hjob : currentJob (s.setLane i l) i = some (n, j) :=
        currentJob_of_head (rest := []) (by rw [State.lane_setLane_self]; exact hq) hslot
      have hl : l = { l with step := .attachCredential } := by rw [← hstep]
      rw [proceed_credential hjob (by rw [State.lane_setLane_self]; exact hstep) hp, hl] at hexec
      exact makesCredentialStep_of_exec hq hslot hres hidentity hstate hnone hexec
    refine ⟨fun bytes htx => ?_, fun w hrb => ?_⟩
    · exact hagain _ _ hqueue hst hid hready ho (exec_frameSent_ready htx hready)
    · obtain ⟨o, hout⟩ := Option.ne_none_iff_exists'.mp hrb
      exact hagain _ _ hqueue hst hid hready ho
        (exec_abandonedWriteEnd_open hout (fun off => by rw [hst]; nofun) (.inl hready) w)

end Sys2Proof.Machine
end

section
/-! CERTIFICATES. What a conversion's result makes of its lane: SUPERVISE and CHECK results inside and outside the window
(R33, R35, R44, R49, R114, R116, R118). -/

namespace Sys2Proof.Machine

/-! ### The sample -/

/-- A sense voltage is held to the converter's range (R114). -/
theorem sampleOf_eq (mv : Int) : sampleOf mv = (max 0 (min 6000 mv)).toNat := by
  unfold sampleOf Config.maxSample
  omega

theorem Lane.inWindow_iff (l : Lane) (mv : Nat) : l.inWindow mv = true ↔ l.vmin ≤ mv ∧ mv ≤ l.vmax := by
  simp [Lane.inWindow]

/-- The state once a conversion that is not void has ended: the converter is idle, and the result is the lane's last
sample (R114). -/
def State.sampled (s : State) (i : LaneId) (mv : Nat) : State :=
  ({ s with supply := { s.supply with converter := none } } : State).setLane i { s.lane i with lastSample := mv }

section Sampled

variable (s : State) (i : LaneId) (mv : Nat)

@[simp] theorem State.sampled_lane : (s.sampled i mv).lane i = { s.lane i with lastSample := mv } :=
  State.lane_setLane_self _ i _

/-- Only the supply and lane `i` differ after that lane is written. -/
theorem State.sampled_setLane (x : Lane) : (s.sampled i mv).setLane i x =
    { s with supply := { s.supply with converter := none }, lanes := s.lanes.set i.val x } :=
  State.setLane_setLane _ i _ x

theorem State.sampled_local : LaneLocal i s (s.sampled i mv) :=
  ⟨rfl, rfl, fun _ hk => State.lane_setLane_ne _ hk _⟩

end Sampled

section Ends

variable {s : State} {c : Conversion}

theorem exec_conversionEnd_idle (h : s.supply.converter = none) (mv : Int) : exec (.conversionEnd mv) s = .next s := by
  simp [exec, execConversionEnd, h]

/-- A void result changes nothing but the converter (R114). -/
theorem exec_conversionEnd_void (hc : s.supply.converter = some c) (hv : c.void = true) (mv : Int) :
    exec (.conversionEnd mv) s = .next { s with supply := { s.supply with converter := none } } := by
  simp [exec, execConversionEnd, hc, hv]

theorem exec_conversionEnd_supervise (hc : s.supply.converter = some c) (hv : c.void = false) (hcls : c.cls = .supervise)
    (mv : Int) : exec (.conversionEnd mv) s =
      .next (takeSupervise (s.sampled c.lane (sampleOf mv)) c.lane (sampleOf mv)) := by
  simp [exec, execConversionEnd, hc, hv, hcls, State.sampled, State.modLane, State.lane]

theorem exec_conversionEnd_check {i : LaneId} (hc : s.supply.converter = some { lane := i, cls := .check, void := false })
    (mv : Int) : exec (.conversionEnd mv) s = .next (takeCheck (s.sampled i (sampleOf mv)) i (sampleOf mv)) := by
  simp [exec, execConversionEnd, hc, State.sampled, State.modLane, State.lane]

end Ends

/-! ### SUPERVISE -/

section Supervise

variable {s : State} {i : LaneId} {mv : Nat}

/-- Within the window the count is 0 (R118). -/
theorem takeSupervise_inside (h : (s.lane i).inWindow mv = true) :
    takeSupervise s i mv = s.setLane i { s.lane i with outOfWindow := 0 } := if_pos h

/-- Outside it for the first time the count is 1 (R118). -/
theorem takeSupervise_first (h : ¬ (s.lane i).inWindow mv = true) (hcount : (s.lane i).outOfWindow = 0) :
    takeSupervise s i mv = s.setLane i { s.lane i with outOfWindow := 1 } := (if_neg h).trans (if_pos hcount)

/-- Outside it again the lane takes lane fault BROWNOUT (R118). -/
theorem takeSupervise_again (h : ¬ (s.lane i).inWindow mv = true) (hcount : (s.lane i).outOfWindow ≠ 0) :
    takeSupervise s i mv = laneFault (s.setLane i { s.lane i with outOfWindow := 2 }) i .brownout :=
  (if_neg h).trans (if_neg hcount)

end Supervise

/-! ### CHECK -/

section Check

variable {s : State} {i : LaneId} {mv : Nat} (hs : (s.lane i).state = .powering)
include hs

/-- Within the window the lane enters RESETTING (R35, R36). -/
theorem takeCheck_inside {p : AttachParams} (h : (s.lane i).inWindow mv = true) (hd : s.ctl.device ≠ .fault)
    (hp : attachParams s i = some p) : takeCheck s i mv = s.setLane i { s.lane i with
      checkCount := (s.lane i).checkCount + 1, state := .resetting, modePin := true, resetPin := true
      resetPulse := some p.resetPulse, checkWait := none, step := .attachPhase
      outputs := (s.lane i).outputsAfter (some true) (some true) none } := by
  simp [takeCheck, hs, h, hd, hp, State.modLane, Lane.enterResetting, Lane.driveMode, Lane.driveReset, Lane.outputsAfter_eq]

/-- In device FAULT the lane stays in POWERING (R33). -/
theorem takeCheck_fault (h : (s.lane i).inWindow mv = true) (hd : s.ctl.device = .fault) :
    takeCheck s i mv = s.setLane i { s.lane i with checkCount := (s.lane i).checkCount + 1 } := by
  simp [takeCheck, hs, h, hd, State.modLane]

/-- The first and the second result outside the window start the 1 ms wait (R116). -/
theorem takeCheck_waits (h : ¬ (s.lane i).inWindow mv = true) (hcount : (s.lane i).checkCount < 2) :
    takeCheck s i mv = s.setLane i { s.lane i with checkCount := (s.lane i).checkCount + 1, checkWait := some 1 } := by
  have hfew : ¬ Config.maxChecks ≤ (s.lane i).checkCount + 1 := by unfold Config.maxChecks; omega
  simp [takeCheck, hs, h, hfew, State.modLane, Config.checkWaitMs]

/-- The third is lane fault SUPPLY_RANGE (R116). -/
theorem takeCheck_third (h : ¬ (s.lane i).inWindow mv = true) (hcount : (s.lane i).checkCount = 2) : takeCheck s i mv =
    laneFault (s.setLane i { s.lane i with checkCount := (s.lane i).checkCount + 1 }) i .supplyRange := by
  have hlast : Config.maxChecks ≤ (s.lane i).checkCount + 1 := by rw [hcount]; exact Nat.le_refl 3
  simp [takeCheck, hs, h, hlast, State.modLane]

end Check

/-! ### A supply fault, whether the switch is on or off -/

/-- Lane `l` is lane `m` once its supply has failed: FAULTED with the code, the session over, and RESET asserted before
the power is off (R44). -/
structure Lane.SupplyFailed (l m : Lane) (code : FaultCode) : Prop where
  state : l.state = .faulted
  faultCode : l.faultCode = some code
  power : l.power = false
  resetPin : l.resetPin = true
  modePin : l.modePin = m.modePin
  outputs : l.outputs = m.outputsAfter none (some true) (some false)
  identity : l.identity = none
  outstanding : l.outstanding = none
  lastSample : l.lastSample = m.lastSample
  outOfWindow : l.outOfWindow = m.outOfWindow

section Fault

variable {s : State} {i : LaneId} {code : FaultCode}

/-- A switch that is off already leaves the lane FAULTED without a change of its power (R44, R110). -/
theorem supplyFaulted_lane_off (hp : (s.lane i).power = false) :
    (supplyFaulted s i code).lane i = ({ s.lane i with pinned := none } : Lane).enterFaulted code := by
  have hlane : ((releasePin s i).modLane i (fun l => l.enterFaulted code)).lane i
      = ({ s.lane i with pinned := none } : Lane).enterFaulted code := by
    rw [State.lane_modLane_self, releasePin_lane, if_pos rfl]
  have hoff : ¬ (({ s.lane i with pinned := none } : Lane).enterFaulted code).power = true := Bool.eq_false_iff.mp hp
  rw [supplyFaulted, switchOff_lane_self, hlane, if_neg hoff]

theorem supplyFaulted_supplyFailed (s : State) (i : LaneId) (code : FaultCode) :
    ((supplyFaulted s i code).lane i).SupplyFailed (s.lane i) code := by
  cases hp : (s.lane i).power with
  | true =>
    rw [supplyFaulted_lane hp]
    exact ⟨rfl, rfl, rfl, rfl, rfl, Lane.supplyFaulted_outputs _ _, rfl, rfl, rfl, rfl⟩
  | false =>
    rw [supplyFaulted_lane_off hp]
    refine ⟨rfl, rfl, hp, rfl, rfl, ?_, rfl, rfl, rfl, rfl⟩
    refine ((s.lane i).outputsAfter_one true).2.1.trans ?_
    simp [Lane.outputsAfter_eq, hp]

theorem supplyFaulted_queue (s : State) (i : LaneId) (code : FaultCode) :
    ((supplyFaulted s i code).lane i).queue = (s.lane i).queue := by
  cases hp : (s.lane i).power with
  | true => rw [supplyFaulted_lane hp]; rfl
  | false => rw [supplyFaulted_lane_off hp]; rfl

theorem raiseEvent_slots (s : State) (i : LaneId) (code : FaultCode) : (raiseEvent s i code).slots = s.slots := by
  by_cases h : s.holdingOpen
  · rw [raiseEvent_of_open h]
    rfl
  · rw [raiseEvent_of_not_open h, (State.joinWait_frame _ _).2.2.1]
    rfl

/-- With no job the lane's supply fault leaves every slot, and is offered as a lane event (R44, R49). -/
theorem laneFault_noJob_leaves (hs : (s.lane i).state ≠ .faulted) (hc : code.isSupply = true) (hq : (s.lane i).queue = []) :
    ((laneFault s i code).lane i).SupplyFailed (s.lane i) code ∧ (laneFault s i code).slots = s.slots ∧
    (s.holdingOpen → (laneFault s i code).writer.holding =
      s.writer.holding ++ [.event i { code := code, sample := (s.lane i).lastSample }]) := by
  have hfailed := supplyFaulted_supplyFailed s i code
  obtain ⟨-, hslots, hwriter⟩ := supplyFaulted_frame s i code
  obtain ⟨e, he⟩ := raiseEvent_lane (supplyFaulted s i code) i code
  rw [laneFault_noJob hs hc hq, he, raiseEvent_slots, hslots]
  refine ⟨{ hfailed with }, rfl, fun hopen => ?_⟩
  rw [raiseEvent_of_open ((supplyFaulted_holdingOpen s i code).mpr hopen), hfailed.lastSample]
  exact congrArg (fun w : Writer => w.holding ++ _) hwriter

/-- The lane's only job ends with the supply fault's code (R44). -/
theorem laneFault_onlyJob_leaves {n : SlotId} {j : Job} (hs : (s.lane i).state ≠ .faulted) (hc : code.isSupply = true)
    (hq : (s.lane i).queue = [n]) (hj : s.slot n = some j) (hres : j.results[i.val] = none) :
    ((laneFault s i code).lane i).SupplyFailed (s.lane i) code ∧ ((laneFault s i code).lane i).queue = [] ∧
    (laneFault s i code).outcomeOf n i = some (.faulted code) := by
  have hqueue : ((supplyFaulted s i code).lane i).queue = [n] := (supplyFaulted_queue s i code).trans hq
  have hslot : (supplyFaulted s i code).slot n = some j :=
    (State.slot_congr (supplyFaulted_frame s i code).2.1 n).trans hj
  have hends : laneFault s i code = closeJob (supplyFaulted s i code) i n
      ((s.lane i).result j.spec.params ((s.lane i).step != .none) ((s.lane i).faultVerdict j code false)) := by
    rw [← nextJob_closeJob hqueue]
    simp [laneFault, faultLane, hs, hc, currentJob_of_head hq hj, supplyFaulted]
  have hend := endsOnlyJob_closeJob (supplyFaulted_local s i code) hqueue hslot hres
    ((s.lane i).result j.spec.params ((s.lane i).step != .none) ((s.lane i).faultVerdict j code false))
  rw [hends, hend.lane, outcomeOf_eq_resultOf, hend.result]
  exact ⟨{ supplyFaulted_supplyFailed s i code with }, rfl, rfl⟩

end Fault

/-- Settles O35: a SUPERVISE result by its lane's window and count, and a CHECK result by those and the device state. -/
theorem conversionResultsAreJudged : Obligations.ConversionResultsAreJudged := by
  refine ⟨fun s c mv hc => ?_, fun s i mv n j p hc hs hq hj hp hstep hres => ?_⟩
  · intro sample l inside idle
    obtain ⟨u, hu⟩ : ∃ u : State, u = s.sampled c.lane sample := ⟨_, rfl⟩
    have hlane : u.lane c.lane = { l with lastSample := sample } := by rw [hu, State.sampled_lane]
    have hwindow : (u.lane c.lane).inWindow sample = true ↔ inside := by rw [hlane]; exact Lane.inWindow_iff l sample
    refine ⟨fun hv => exec_conversionEnd_void hc hv mv, fun hv hcls => ?_, exec_conversionEnd_idle rfl mv⟩
    have hexec : exec (.conversionEnd mv) s = .next (takeSupervise u c.lane sample) := by
      rw [exec_conversionEnd_supervise hc hv hcls, sampleOf_eq, hu]
    refine ⟨fun hin => ?_, fun hout hcount => ?_, fun hout hcount hstate hqueue => ?_⟩
    · rw [hexec, takeSupervise_inside (hwindow.mpr hin), hlane, hu, State.sampled_setLane]
    · rw [hexec, takeSupervise_first (mt hwindow.mp hout) (by rw [hlane]; exact hcount), hlane, hu, State.sampled_setLane]
    · obtain ⟨v, hv⟩ : ∃ v : State, v = u.setLane c.lane { u.lane c.lane with outOfWindow := 2 } := ⟨_, rfl⟩
      have hlane' : v.lane c.lane = { l with lastSample := sample, outOfWindow := 2 } := by
        rw [hv, State.lane_setLane_self, hlane]
      have hlocal : LaneLocal c.lane s v := by
        rw [hv, hu]
        exact (State.sampled_local s c.lane sample).trans
          (modLane_local (s.sampled c.lane sample) c.lane fun x => { x with outOfWindow := 2 })
      obtain ⟨hctl, -, hothers⟩ := hlocal.trans (laneFault_local v c.lane .brownout)
      obtain ⟨hfailed, hslots, hevent⟩ := laneFault_noJob_leaves (s := v) (i := c.lane) (code := .brownout)
        (by rw [hlane']; exact hstate) rfl (by rw [hlane']; exact hqueue)
      have hwriter : v.writer = s.writer := by rw [hv, hu]; rfl
      rw [hlane'] at hfailed hevent
      rw [hexec, takeSupervise_again (mt hwindow.mp hout) (by rw [hlane]; exact hcount.symm ▸ one_ne_zero), ← hv]
      refine ⟨_, rfl, hfailed.state, hfailed.faultCode, hfailed.power, hfailed.resetPin, hfailed.modePin, hfailed.outputs,
        hfailed.identity, hfailed.outstanding, hfailed.lastSample, hfailed.outOfWindow, fun hopen => ?_, hothers, hctl, ?_⟩
      · rw [← hwriter]
        exact hevent (by rw [hv, hu]; exact hopen)
      · rw [hslots, hv, hu]
        rfl
  · intro sample l inside counted after
    obtain ⟨u, hu⟩ : ∃ u : State, u = s.sampled i sample := ⟨_, rfl⟩
    have hlane : u.lane i = { l with lastSample := sample } := by rw [hu, State.sampled_lane]
    have hwindow : (u.lane i).inWindow sample = true ↔ inside := by rw [hlane]; exact Lane.inWindow_iff l sample
    have hs' : (u.lane i).state = .powering := by rw [hlane]; exact hs
    have hexec : exec (.conversionEnd mv) s = .next (takeCheck u i sample) := by
      rw [exec_conversionEnd_check hc, sampleOf_eq, hu]
    have hq' : (u.lane i).queue = [n] := by rw [hlane]; exact hq
    have hj' : u.slot n = some j := by rw [hu]; exact hj
    have hctl : u.ctl = s.ctl := by rw [hu]; rfl
    refine ⟨fun hin hd => ?_, fun hin hd => ?_, fun hout hcount => ?_, fun hout hcount => ?_⟩
    · have hparams := attachParams_of_head hq' hj' hp (by rw [hlane]; exact hstep ▸ nofun)
      rw [hexec, takeCheck_inside hs' (hwindow.mpr hin) (hctl ▸ hd) hparams, hlane, hu, State.sampled_setLane, ← hstep]
      rfl
    · rw [hexec, takeCheck_fault hs' (hwindow.mpr hin) (hctl ▸ hd), hlane, hu, State.sampled_setLane]
    · rw [hexec, takeCheck_waits hs' (mt hwindow.mp hout) (by rw [hlane]; exact hcount), hlane, hu, State.sampled_setLane]
    · obtain ⟨v, hv⟩ : ∃ v : State, v = u.setLane i { u.lane i with checkCount := (u.lane i).checkCount + 1 } := ⟨_, rfl⟩
      have hlane' : v.lane i = counted := by rw [hv, State.lane_setLane_self, hlane]
      have hlocal : LaneLocal i s v := by
        rw [hv, hu]
        exact (State.sampled_local s i sample).trans
          (modLane_local (s.sampled i sample) i fun x => { x with checkCount := x.checkCount + 1 })
      obtain ⟨hctl', -, hothers⟩ := hlocal.trans (laneFault_local v i .supplyRange)
      obtain ⟨hfailed, hqueue, houtcome⟩ := laneFault_onlyJob_leaves (s := v) (i := i) (code := .supplyRange) (n := n) (j := j)
        (by rw [hlane']; exact hs ▸ nofun) rfl (by rw [hlane']; exact hq) (by rw [hv]; exact hj') hres
      rw [hlane'] at hfailed
      rw [hexec, takeCheck_third hs' (mt hwindow.mp hout) (by rw [hlane]; exact hcount), ← hv]
      exact ⟨_, rfl, hfailed.state, hfailed.faultCode, hfailed.power, hfailed.resetPin, hfailed.outputs, hqueue, houtcome,
        hctl', hothers⟩

end Sys2Proof.Machine
end

section
/-! SUPPORT. A lane job that is placed while a lane of its set has an empty queue: the state in which it stands placed, and
the happening in which a lane takes it up (R29, R30, R57, R58, R132). -/

namespace Sys2Proof.Machine

/-! ### Placed -/

/-- The lanes of a set whose queues are empty, in ascending order (R57). -/
def State.idleLanes (s : State) (m : BitVec 16) : List LaneId :=
  (lanesOf m).filter (fun i => (s.lane i).queue.isEmpty)

/-- The job of slot `n` is ACTIVE, and at the tail of the queue of every lane of its set (R55, R57). -/
def State.placedActive (s : State) (n : SlotId) (j : Job) : State :=
  (s.setSlot n (some { j with state := .active, listRead := false })).atTails j.spec.lanes n

section Placed

variable {s : State} {n : SlotId} {j : Job} {i : LaneId}

theorem mem_idleLanes {m : BitVec 16} : i ∈ s.idleLanes m ↔ inSet m i = true ∧ (s.lane i).queue = [] := by
  rw [State.idleLanes, List.mem_filter, mem_lanesOf, List.isEmpty_iff]

theorem nodup_idleLanes (s : State) (m : BitVec 16) : (s.idleLanes m).Nodup := (nodup_lanesOf m).filter _

/-- A lane job with an idle lane is ACTIVE, and each idle lane takes it up (R57, R132). -/
theorem placeLaneJob_active (h : ∃ i : LaneId, inSet j.spec.lanes i = true ∧ (s.lane i).queue = []) :
    placeLaneJob s n j = (s.idleLanes j.spec.lanes).foldl nextJob (s.placedActive n j) := by
  obtain ⟨i, hi⟩ := h
  have hheads : ¬ (s.idleLanes j.spec.lanes).isEmpty = true := by
    rw [List.isEmpty_iff]
    exact List.ne_nil_of_mem (mem_idleLanes.mpr hi)
  unfold State.idleLanes at hheads
  unfold placeLaneJob
  dsimp only
  rw [if_neg hheads, joinQueues_eq_atTails]
  rfl

theorem placedActive_slot_self (s : State) (n : SlotId) (j : Job) :
    (s.placedActive n j).slot n = some { j with state := .active, listRead := false } := State.slot_setSlot_self s n _

theorem placedActive_slot_ne {m : SlotId} (h : m ≠ n) : (s.placedActive n j).slot m = s.slot m :=
  State.slot_setSlot_ne s h _

theorem placedActive_lane (s : State) (n : SlotId) (j : Job) (i : LaneId) : (s.placedActive n j).lane i =
    if inSet j.spec.lanes i then { s.lane i with queue := (s.lane i).queue ++ [n] } else s.lane i := atTails_lane _ _ n i

theorem placedActive_lane_idle (hi : inSet j.spec.lanes i = true) (hq : (s.lane i).queue = []) :
    (s.placedActive n j).lane i = { s.lane i with queue := [n] } := by
  rw [placedActive_lane, if_pos hi, hq]
  rfl

theorem placedActive_lane_other (hi : inSet j.spec.lanes i = false) : (s.placedActive n j).lane i = s.lane i := by
  rw [placedActive_lane, if_neg (Bool.eq_false_iff.mp hi)]

end Placed

/-! ### Taken up -/

/-- Lane `i` has the job of slot `n` as its current job, with the job-bound fields at their start values (R29, R30). -/
def State.taken (s : State) (i : LaneId) (n : SlotId) : State := s.setLane i ((s.lane i).taking n)

/-- The ACTIVE job of slot `n` is the whole queue of lane `i`, outside device FAULT: the lane will take it up (R32). -/
structure State.Awaits (s : State) (i : LaneId) (n : SlotId) (j : Job) : Prop where
  queue : (s.lane i).queue = [n]
  slot : s.slot n = some j
  active : j.state = .active
  device : s.ctl.device ≠ .fault

namespace State.Awaits

variable {s : State} {i : LaneId} {n : SlotId} {j : Job}

theorem becomeCurrent_slot (h : s.Awaits i n j) : (becomeCurrent s i n).slot n = some j := by
  simp [becomeCurrent, State.modSlot_slot, h.slot, h.active]

/-- An ACTIVE job that becomes current stays as it is, and the lane's job-bound fields are set (R29, R30). -/
theorem startJob_becomeCurrent (h : s.Awaits i n j) : (becomeCurrent s i n).modLane i Lane.startJob = s.taken i n := by
  have hsame : s.modSlot n (fun k => if k.state = .queued then { k with state := .active } else k) = s := by
    unfold State.modSlot
    rw [h.slot]
    dsimp only
    rw [if_neg (by rw [h.active]; exact nofun), State.setSlot_slot_self h.slot]
  have hlane : (s.lane i).taking n = ({ s.lane i with lastRefusal := none } : Lane).startJob := by
    unfold Lane.taking
    rw [← h.queue]
    rfl
  unfold becomeCurrent
  rw [hsame, State.taken, hlane, State.modLane_modLane]

/-- What the lane makes of its only job is brought to its end (R32, R58). -/
theorem nextJob_eq (h : s.Awaits i n j) : nextJob s i = resolveStep i (takeUp (becomeCurrent s i n) i n) := by
  obtain ⟨p, hp⟩ : ∃ p : Stepped, p = takeUp (becomeCurrent s i n) i n := ⟨_, rfl⟩
  have hqueue : (p.1.lane i).queue = [n] := by
    rw [hp, (KeepsQueues.takeUp _ i n).queue i]
    simpa [becomeCurrent, State.lane_congr (State.modSlot_frame s n _).2.2.1] using h.queue
  have hslot : p.1.slot n = some j := by
    rw [hp, (KeepsQueues.takeUp _ i n).slot n, h.becomeCurrent_slot]
  have hdevice : (becomeCurrent s i n).ctl.device ≠ .fault := by
    rw [(becomeCurrent_local s i n).1]
    exact h.device
  unfold nextJob
  rw [h.queue, List.length_singleton, settle, h.queue]
  dsimp only
  rw [if_neg hdevice, ← hp]
  obtain ⟨t, v⟩ := p
  cases v with
  | none => rfl
  | some v =>
    dsimp only at hqueue hslot
    rw [resolveStep_onlyJob hqueue hslot]
    simp only [settle, conclude, hslot]

/-- An ATTACH begins with its first phase (R34 to R36). -/
theorem nextJob_attach (h : s.Awaits i n j) {p : AttachParams} (hp : j.spec.params = .attach p) :
    nextJob s i = attachTakeUp (s.taken i n) i p := by
  rw [h.nextJob_eq, takeUp, h.becomeCurrent_slot]
  dsimp only
  rw [hp, h.startJob_becomeCurrent]
  rfl

/-- A DETACH without RUN ends at once (R43). -/
theorem nextJob_detachOff (h : s.Awaits i n j) {e : BitVec 32} (hp : j.spec.params = .detach e)
    (hrun : j.spec.flags.getLsbD 1 = false) :
    nextJob s i = resolveStep i (detachOff (s.taken i n) i, some (Verdict.plain .ok)) := by
  have hrun : ¬ j.spec.run = true := Bool.eq_false_iff.mp hrun
  rw [h.nextJob_eq, takeUp, h.becomeCurrent_slot]
  dsimp only
  rw [hp, h.startJob_becomeCurrent]
  dsimp only
  rw [if_neg hrun]

/-- A DETACH with RUN starts the image on a READY lane, and ends at once on another (R32, R42). -/
theorem nextJob_detachRun (h : s.Awaits i n j) {e : BitVec 32} (hp : j.spec.params = .detach e)
    (hrun : j.spec.flags.getLsbD 1 = true) : nextJob s i = resolveStep i (if (s.lane i).state = .ready
      then enterStep (s.taken i n) i .detachStart else (s.taken i n, some (Verdict.plain .notAttached))) := by
  have hrun : j.spec.run = true := hrun
  have hlane : (s.taken i n).lane i = (s.lane i).taking n := State.lane_setLane_self s i _
  rw [h.nextJob_eq, takeUp, h.becomeCurrent_slot]
  dsimp only
  rw [hp, h.startJob_becomeCurrent]
  dsimp only
  rw [if_pos hrun, hlane]
  rfl

/-- A job that works inside a session looks for one, and checks itself against it (R32, R59). -/
theorem nextJob_session (h : s.Awaits i n j) (hk : j.spec.params.kind = .erase ∨ j.spec.params.kind = .program ∨
    j.spec.params.kind = .verify ∨ j.spec.params.kind = .readback ∨ j.spec.params.kind = .protect) :
    nextJob s i = resolveStep i (sessionJobTakeUp (s.taken i n) i n j) := by
  rw [h.nextJob_eq, takeUp, h.becomeCurrent_slot]
  dsimp only
  rw [h.startJob_becomeCurrent]
  cases hp : j.spec.params with
  | erase => rfl
  | program => rfl
  | verify => rfl
  | readback => rfl
  | protect => rfl
  | attach => simp [hp, Params.kind] at hk
  | detach => simp [hp, Params.kind] at hk
  | barrier => simp [hp, Params.kind] at hk
  | loadCredential => simp [hp, Params.kind] at hk
  | clearCredential => simp [hp, Params.kind] at hk
  | abort => simp [hp, Params.kind] at hk

theorem taken_slot (h : s.Awaits i n j) : (s.taken i n).slot n = some j := h.slot

end State.Awaits

theorem taken_lane_self (s : State) (i : LaneId) (n : SlotId) : (s.taken i n).lane i = (s.lane i).taking n :=
  State.lane_setLane_self s i _

theorem taken_local (s : State) (i : LaneId) (n : SlotId) : LaneLocal i s (s.taken i n) :=
  ⟨rfl, rfl, fun _ hk => State.lane_setLane_ne s hk _⟩

/-! ### Placed on one idle lane -/

/-- The job of slot `n` stands placed in `u`, ACTIVE and awaited by its only lane, whose queue was empty; of the rest of `s`
only the Intake Unit has changed (R57, R132). -/
structure PlacedAlone (s u : State) (i : LaneId) (n : SlotId) (j : Job) : Prop where
  awaits : u.Awaits i n { j with state := .active }
  lane : u.lane i = { s.lane i with queue := [n] }
  leaves : LaneLocal i s u
  slots : ∀ m : SlotId, m ≠ n → u.slot m = s.slot m
  pool : u.pool = s.pool
  creds : u.creds = s.creds
  supply : u.supply = s.supply
  writer : u.writer = s.writer

theorem PlacedAlone.taken_lane {s u : State} {i : LaneId} {n : SlotId} {j : Job} (h : PlacedAlone s u i n j) :
    (u.taken i n).lane i = (s.lane i).taking n := by
  rw [taken_lane_self, h.lane]
  rfl

/-- A lane job in INTAKE whose only lane has an empty queue is placed there, and taken up (R57, R132). -/
theorem place_alone {s : State} {i : LaneId} {n : SlotId} {j : Job} (hj : s.slot n = some j)
    (hkind : j.spec.params.kind.hasLanes = true) (hread : j.listRead = false) (hlanes : j.spec.lanes = laneBit i)
    (hq : (s.lane i).queue = []) (hd : s.ctl.device ≠ .fault) :
    ∃ u : State, place s n = nextJob u i ∧ PlacedAlone s u i n j := by
  obtain ⟨v, hv⟩ : ∃ v : State, v = s.leaveIntake j.ring := ⟨_, rfl⟩
  have hset : ∀ k : LaneId, inSet j.spec.lanes k = true ↔ k = i := fun k => by
    rw [← mem_lanesOf, hlanes, lanesOf_laneBit, List.mem_singleton]
  have hqv : (v.lane i).queue = [] := by rw [hv]; exact hq
  have hidle : v.idleLanes j.spec.lanes = [i] := by
    unfold State.idleLanes
    rw [hlanes, lanesOf_laneBit, List.filter_cons_of_pos (by rw [hqv]; rfl), List.filter_nil]
  have hi : inSet j.spec.lanes i = true := (hset i).mpr rfl
  have hother : ∀ k : LaneId, k ≠ i → (v.placedActive n j).lane k = s.lane k := fun k hk => by
    rw [placedActive_lane_other (Bool.eq_false_iff.mpr (mt (hset k).mp hk)), hv]
    rfl
  have hlane : (v.placedActive n j).lane i = { s.lane i with queue := [n] } := by
    rw [placedActive_lane_idle hi hqv, hv]
    rfl
  have hslot : (v.placedActive n j).slot n = some { j with state := .active } := by
    rw [placedActive_slot_self, ← hread]
  have hslots : ∀ m : SlotId, m ≠ n → (v.placedActive n j).slot m = s.slot m := fun m hm => by
    rw [placedActive_slot_ne hm, hv]
    rfl
  rw [place_laneJob hj hkind, ← hv, placeLaneJob_active ⟨i, hi, hqv⟩, hidle, List.foldl_cons, List.foldl_nil]
  subst hv
  exact ⟨(s.leaveIntake j.ring).placedActive n j, Eq.refl _, ⟨by rw [hlane], hslot, rfl, hd⟩, hlane,
    ⟨rfl, rfl, hother⟩, hslots, rfl, rfl, rfl, rfl⟩

end Sys2Proof.Machine
end

section
/-! CERTIFICATES. A job that ends in the happening of its placement, on its only lane, and DETACH without RUN (R32, R43, R73,
R110). -/

namespace Sys2Proof.Machine

/-! ### The status of a job of one lane -/

section OneLane

variable {j : Job} {i : LaneId}

theorem inSet_laneBit_iff {m : BitVec 16} (h : m = laneBit i) (k : LaneId) : inSet m k = true ↔ k = i := by
  rw [← mem_lanesOf, h, lanesOf_laneBit, List.mem_singleton]

/-- A job whose only lane is OK has SUCCESS, and the lane stands in its OK mask (R73). -/
theorem Job.fixStatus_onlyLane_ok (hl : j.spec.lanes = laneBit i) (ho : j.outcome i = some .ok) :
    j.fixStatus = { status := .success, okMask := j.spec.lanes, failMask := 0 } := by
  have hset := inSet_laneBit_iff hl
  have haborted : ¬ j.someAborted := fun ⟨k, hk, h⟩ => by
    rw [(hset k).mp hk, ho] at h
    cases h
  have hall : ¬ j.someNotOk := fun ⟨k, hk, h⟩ => h ((hset k).mp hk ▸ ho)
  have hstatus := j.fixStatus_status
  rw [if_neg haborted, if_pos hall] at hstatus
  obtain ⟨hokMask, hfailMask⟩ := j.fixStatus_masks
  have hok : j.okMask = j.spec.lanes := by
    refine BitVec.eq_of_getLsbD_eq fun k hk => Bool.eq_iff_iff.mpr ?_
    refine (j.inSet_okMask ⟨k, hk⟩).trans (and_iff_left_of_imp fun h => ?_)
    rw [(hset _).mp h, ho]
  have hfail : j.spec.lanes &&& ~~~ j.okMask = 0 :=
    (laneSet_eq_zero_iff _).mpr fun k hk => hall ⟨k, (j.inSet_failMask k).mp hk⟩
  exact congr (congr (congrArg FinalStatus.mk hstatus) (hokMask.trans hok)) (hfailMask.trans hfail)

/-- A job whose only lane is neither OK nor ABORTED has FAILED, and the lane stands in its fail mask (R73). -/
theorem Job.fixStatus_onlyLane_failed (hl : j.spec.lanes = laneBit i) {o : LaneOutcome} (ho : j.outcome i = some o)
    (hok : o ≠ .ok) (habort : o ≠ .aborted) :
    j.fixStatus = { status := .failed, okMask := 0, failMask := j.spec.lanes } := by
  have hset := inSet_laneBit_iff hl
  have hi : inSet j.spec.lanes i = true := (hset i).mpr rfl
  have haborted : ¬ j.someAborted := fun ⟨k, hk, h⟩ => by
    rw [(hset k).mp hk, ho] at h
    exact habort (Option.some.inj h)
  have hnone : ¬ j.someOk := fun ⟨k, hk, h⟩ => by
    rw [(hset k).mp hk, ho] at h
    exact hok (Option.some.inj h)
  have hbad : j.someNotOk := ⟨i, hi, fun h => hnone ⟨i, hi, h⟩⟩
  have hstatus := j.fixStatus_status
  rw [if_neg haborted, if_neg (not_not.mpr hbad), if_pos hnone] at hstatus
  obtain ⟨hokMask, hfailMask⟩ := j.fixStatus_masks
  have hempty : j.okMask = 0 := (laneSet_eq_zero_iff _).mpr fun k hk => hnone ⟨k, (j.inSet_okMask k).mp hk⟩
  have hall : ~~~(0 : BitVec 16) = BitVec.allOnes 16 := rfl
  have hfail : j.fixStatus.failMask = j.spec.lanes := by rw [hfailMask, hempty, hall, BitVec.and_allOnes]
  exact congr (congr (congrArg FinalStatus.mk hstatus) (hokMask.trans hempty)) hfail

end OneLane

/-! ### The end of a job with one lane -/

/-- From `w` to `t` the job of slot `n` has retired with the status `f`, and every other slot, the credentials and the
supply monitor are as they were (R55, R56). -/
structure RetiresAlone (w t : State) (n : SlotId) (f : FinalStatus) : Prop where
  slot : ∃ b : Job, t.slot n = some b ∧ b.state = .retiring ∧ b.final = some f
  slots : ∀ m : SlotId, m ≠ n → t.slot m = w.slot m
  creds : t.creds = w.creds
  supply : t.supply = w.supply

section Retires

variable {w : State} {i : LaneId} {n : SlotId} {j : Job} {v : Verdict}

/-- The job of slot `n` is ACTIVE, the only one of its only lane, and its outcome is open (R56). -/
structure State.OnlyPart (w : State) (i : LaneId) (n : SlotId) (j : Job) : Prop where
  queue : (w.lane i).queue = [n]
  slot : w.slot n = some j
  active : j.state = .active
  lanes : j.spec.lanes = laneBit i
  unsettled : j.results[i.val] = none

/-- The job as it ends with the verdict `v` on its only lane, which stands as `l` (R56). -/
def Job.endedBy (j : Job) (l : Lane) (i : LaneId) (v : Verdict) : Job := j.record i (l.result j.spec.params true v)

theorem Job.endedBy_outcome (h : j.results[i.val] = none) (l : Lane) (v : Verdict) :
    (j.endedBy l i v).outcome i = some v.outcome := by
  have hresult := Job.record_results h (l.result j.spec.params true v) i
  rw [if_pos rfl] at hresult
  unfold Job.endedBy Job.outcome
  rw [hresult]
  rfl

/-- A verdict on its only lane retires the job (R55, R56). -/
theorem State.OnlyPart.retires (h : w.OnlyPart i n j) (v : Verdict) :
    RetiresAlone w (resolveStep i (w, some v)) n (j.endedBy (w.lane i) i v).fixStatus := by
  have hclose := closeJob_slot (i := i) h.slot (.inr h.active) ((w.lane i).result j.spec.params true v)
  have hdone : (j.endedBy (w.lane i) i v).allDone = true := by
    refine (Job.allDone_iff _).mpr fun k hk => ?_
    obtain rfl : k = i := (inSet_laneBit_iff ((congrArg JobSpec.lanes (Job.record_spec j i _)).trans h.lanes) k).mp hk
    exact Option.isSome_iff_exists.mpr ⟨_, (Job.record_results h.unsettled _ k).trans (if_pos rfl)⟩
  obtain ⟨-, hsupply⟩ := closeJob_engine_supply w i n ((w.lane i).result j.spec.params true v)
  rw [resolveStep_onlyJob h.queue h.slot]
  refine ⟨⟨_, (hclose n).trans (if_pos rfl), ?_⟩, fun m hm => (hclose m).trans (if_neg hm),
    closeJob_creds w i n _, hsupply⟩
  have hretired := Job.retiredIfDone_of_done hdone
  unfold Job.endedBy at hretired ⊢
  rw [hretired]
  exact ⟨rfl, rfl⟩

/-- A job that ends OK on its only lane has SUCCESS (R73). -/
theorem State.OnlyPart.retires_ok (h : w.OnlyPart i n j) (hv : v.outcome = .ok) :
    RetiresAlone w (resolveStep i (w, some v)) n { status := .success, okMask := j.spec.lanes, failMask := 0 } := by
  have hspec : (j.endedBy (w.lane i) i v).spec = j.spec := Job.record_spec j i _
  rw [← hspec, ← Job.fixStatus_onlyLane_ok (hspec ▸ h.lanes) (hv ▸ Job.endedBy_outcome h.unsettled (w.lane i) v)]
  exact h.retires v

/-- A job that ends on its only lane, neither OK nor ABORTED, has FAILED (R73). -/
theorem State.OnlyPart.retires_failed (h : w.OnlyPart i n j) (hok : v.outcome ≠ .ok) (habort : v.outcome ≠ .aborted) :
    RetiresAlone w (resolveStep i (w, some v)) n { status := .failed, okMask := 0, failMask := j.spec.lanes } := by
  have hspec : (j.endedBy (w.lane i) i v).spec = j.spec := Job.record_spec j i _
  rw [← hspec,
    ← Job.fixStatus_onlyLane_failed (hspec ▸ h.lanes) (Job.endedBy_outcome h.unsettled (w.lane i) v) hok habort]
  exact h.retires v

end Retires

/-! ### The lane powered down -/

/-- Lane `l` once a DETACH without RUN has taken it down (R43). -/
def Lane.detached (l : Lane) : Lane :=
  let off : Lane := ({ l with pinned := none } : Lane).enterOff
  if l.power then off.powerOff else off

/-- The switch is off last, after MODE and RESET (R26, R43; log 40). -/
theorem Lane.detached_outputs (l : Lane) : l.detached.power = false ∧
    l.detached.outputs = l.outputsAfter (some false) (some true) (some false) := by
  have h : l.abortedEarly = { l.detached with tx := .idle } := by
    unfold Lane.abortedEarly Lane.detached
    dsimp only
    split <;> rfl
  have houtputs := l.abortedEarly_outputs
  rwa [h] at houtputs

/-- The lane is OFF with its session and its fault code cleared, and MODE and RESET stand as they must (R43). -/
structure Lane.DetachedFrom (m l : Lane) : Prop where
  state : m.state = .off
  modePin : m.modePin = false
  resetPin : m.resetPin = true
  identity : m.identity = none
  unlocked : m.unlocked = false
  pinned : m.pinned = none
  outstanding : m.outstanding = none
  faultCode : m.faultCode = none
  pendingEvent : m.pendingEvent = l.pendingEvent
  vmin : m.vmin = l.vmin
  vmax : m.vmax = l.vmax
  lastSample : m.lastSample = l.lastSample

theorem Lane.detached_from (l : Lane) : l.detached.DetachedFrom l := by
  unfold Lane.detached
  dsimp only
  split <;> exact ⟨rfl, rfl, rfl, rfl, rfl, rfl, rfl, rfl, rfl, rfl, rfl, rfl⟩

theorem detachOff_lane (s : State) (i : LaneId) : (detachOff s i).lane i = (s.lane i).detached := by
  unfold detachOff
  rw [switchOff_lane_self, State.lane_modLane_self, releasePin_lane, if_pos rfl]
  rfl

/-! ### The claim on one idle lane -/

/-- A record without a list, on one lane with an empty queue, is claimed, placed and taken up in one happening (R130,
R132). -/
theorem State.recordTaken.exec_alone {s : State} {r : RingId} {bytes : List Byte} {j : JobSpec} {n : SlotId} {i : LaneId}
    (h : s.recordTaken r bytes j) (hkind : j.params.kind.hasLanes = true) (hlist : j.hasList = false)
    (hlanes : j.lanes = laneBit i) (hfree : s.lowestFree n) (hq : (s.lane i).queue = []) (hroom : s.placesTaken i < 4) :
    ∃ u : State, exec (.recordReadEnd .live (.good bytes)) s = .next (nextJob u i) ∧
      PlacedAlone s u i n (newJob r j) := by
  have hdevice : s.ctl.device ≠ .fault := h.2.1
  obtain ⟨u, hplace, hu⟩ := place_alone (s := s.withClaim r j n) (j := newJob r j) withClaim_slot_self hkind hlist
    hlanes hq hdevice
  have hallRoom : ∀ k : LaneId, inSet j.lanes k = true → s.placesTaken k < 4 := fun k hk => by
    rw [(inSet_laneBit_iff hlanes k).mp hk]
    exact hroom
  refine ⟨u, ?_, ⟨hu.awaits, hu.lane, hu.leaves, fun m hm => (hu.slots m hm).trans (withClaim_slot_ne hm), hu.pool,
    hu.creds, hu.supply, hu.writer⟩⟩
  rw [h.exec_examine (fun hk => by rw [hk] at hkind; cases hkind) (fun hk => by rw [hk] at hkind; cases hkind)
    (fun hk => by rw [hk] at hkind; cases hkind), examine_claim hfree hallRoom, claim_noList hlist, hplace]

/-- Settles O23: the claim, the take-up that ends at once, and the lane that it leaves. -/
theorem detachPowersTheLaneDown : Obligations.DetachPowersTheLaneDown := by
  intro s r bytes j entry n i htaken hp hrun hlanes hfree hq hroom
  obtain ⟨u, hexec, hu⟩ := htaken.exec_alone (n := n) (by rw [hp]; rfl) (by simp [JobSpec.hasList, hp, Params.kind])
    hlanes hfree hq hroom
  obtain ⟨w, hw⟩ : ∃ w : State, w = detachOff (u.taken i n) i := ⟨_, rfl⟩
  have hlane : w.lane i = ((s.lane i).taking n).detached := by rw [hw, detachOff_lane, hu.taken_lane]
  have hlocal : LaneLocal i s w := by
    rw [hw]
    exact hu.leaves.trans ((taken_local u i n).trans (detachOff_local _ i))
  have hkept : KeepsQueues (u.taken i n) w := by
    rw [hw]
    exact KeepsQueues.detachOff _ i
  have hpart : w.OnlyPart i n { newJob r j with state := .active } := by
    refine ⟨?_, (hkept.slot n).trans hu.awaits.taken_slot, rfl, hlanes, ?_⟩
    · rw [hkept.queue i, hu.taken_lane]
      rfl
    · exact Vector.getElem_replicate _
  have hend := resolveStep_endsOnlyJob hlocal hpart.queue hpart.slot hpart.unsettled (Verdict.plain .ok)
  have hretires := hpart.retires_ok (v := Verdict.plain .ok) rfl
  rw [hu.awaits.nextJob_detachOff hp hrun, ← hw] at hexec
  obtain ⟨hpower, houtputs⟩ := ((s.lane i).taking n).detached_outputs
  have hdown := ((s.lane i).taking n).detached_from
  refine ⟨_, hexec, ?_, fun m hm => ?_, hretires.slot, hend.ctl, hend.others, ?_⟩
  · rw [outcomeOf_eq_resultOf, hend.result]
    rfl
  · rw [hretires.slots m hm, hkept.slot m]
    exact hu.slots m hm
  · rw [hend.lane, hlane]
    exact ⟨hdown.state, hdown.modePin, hdown.resetPin, hpower, houtputs, hdown.identity, hdown.unlocked, hdown.pinned,
      hdown.outstanding, hdown.faultCode, rfl, hdown.pendingEvent, hdown.vmin, hdown.vmax, hdown.lastSample⟩

end Sys2Proof.Machine
end

section
/-! CERTIFICATES. An ATTACH that is taken up with its claim, on every lane of its set that has an empty queue (R34 to R36,
R57, R130, R132). -/

namespace Sys2Proof.Machine

/-! ### One lane -/

/-- Lane `l` once it has taken up an ATTACH (R34 to R36). -/
def Lane.attaching (l : Lane) (p : AttachParams) : Lane :=
  let fresh : Lane :=
    { ({ l with pinned := none } : Lane).endSession.stopPhases with
      faultCode := none, attempts := 0, vmin := p.vmin, vmax := p.vmax, outOfWindow := 0 }
  if l.power then fresh.enterResetting p.resetPulse else fresh.enterPowering p.powerSettle

/-- Lane `m` has taken up an ATTACH from where it stood as `l`: its session is over, the window is stored, RESET is asserted
and the power on (R34). -/
structure Lane.AttachingFrom (m l : Lane) (p : AttachParams) : Prop where
  queue : m.queue = l.queue
  step : m.step = .attachPhase
  identity : m.identity = none
  unlocked : m.unlocked = false
  pinned : m.pinned = none
  faultCode : m.faultCode = none
  attempts : m.attempts = 0
  vmin : m.vmin = p.vmin
  vmax : m.vmax = p.vmax
  outOfWindow : m.outOfWindow = 0
  lastSample : m.lastSample = l.lastSample
  pendingEvent : m.pendingEvent = l.pendingEvent
  resetPin : m.resetPin = true
  power : m.power = true

theorem Lane.attaching_from (l : Lane) (p : AttachParams) : (l.attaching p).AttachingFrom l p := by
  unfold Lane.attaching
  dsimp only
  split
  · next hp => exact ⟨rfl, rfl, rfl, rfl, rfl, rfl, rfl, rfl, rfl, rfl, rfl, rfl, rfl, hp⟩
  · exact ⟨rfl, rfl, rfl, rfl, rfl, rfl, rfl, rfl, rfl, rfl, rfl, rfl, rfl, rfl⟩

/-- A lane whose switch was off is in POWERING, its outputs driven in their order (R26, R35; log 40). -/
theorem Lane.attaching_off {l : Lane} (h : l.power = false) (p : AttachParams) :
    (l.attaching p).state = .powering ∧ (l.attaching p).modePin = false ∧
      (l.attaching p).powerSettle = some p.powerSettle ∧ (l.attaching p).checkCount = 0 ∧
      (l.attaching p).outputs = l.outputsAfter (some false) (some true) (some true) := by
  unfold Lane.attaching
  dsimp only
  rw [if_neg (Bool.eq_false_iff.mp h)]
  exact ⟨rfl, rfl, rfl, rfl, Lane.outputsAfter_all _ false true true⟩

/-- A lane whose switch was on is in RESETTING, its outputs driven in their order (R26, R36; log 40). -/
theorem Lane.attaching_on {l : Lane} (h : l.power = true) (p : AttachParams) :
    (l.attaching p).state = .resetting ∧ (l.attaching p).modePin = true ∧
      (l.attaching p).resetPulse = some p.resetPulse ∧
      (l.attaching p).outputs = l.outputsAfter (some true) (some true) none := by
  unfold Lane.attaching
  dsimp only
  rw [if_pos h]
  exact ⟨rfl, rfl, rfl, Lane.outputsAfter_modeReset _ true true⟩

theorem attachTakeUp_lane (s : State) (i : LaneId) (p : AttachParams) :
    (attachTakeUp s i p).lane i = (s.lane i).attaching p := by
  unfold attachTakeUp
  rw [State.lane_modLane_self, releasePin_lane, if_pos rfl]
  rfl

/-! ### The idle lanes, one after the other -/

/-- From `s` to `t` only lanes and credential pins have changed: what the take-up of an ATTACH leaves. -/
structure AttachLeaves (s t : State) : Prop where
  ctl : t.ctl = s.ctl
  intake : t.intake = s.intake
  slots : t.slots = s.slots
  pool : t.pool = s.pool
  supply : t.supply = s.supply
  writer : t.writer = s.writer

theorem AttachLeaves.trans {s t u : State} (h : AttachLeaves s t) (k : AttachLeaves t u) : AttachLeaves s u :=
  ⟨k.ctl.trans h.ctl, k.intake.trans h.intake, k.slots.trans h.slots, k.pool.trans h.pool, k.supply.trans h.supply,
    k.writer.trans h.writer⟩

theorem attachTakeUp_leaves (s : State) (i : LaneId) (p : AttachParams) : AttachLeaves s (attachTakeUp s i p) := by
  obtain ⟨hctl, hintake, hslots, hpool, hsupply, hwriter, -⟩ := releasePin_frame s i
  exact ⟨hctl, hintake, hslots, hpool, hsupply, hwriter⟩

/-- One idle lane takes the ATTACH up, and the others stand as they did (R34). -/
theorem State.Awaits.attach {s : State} {i : LaneId} {n : SlotId} {j : Job} {p : AttachParams} (h : s.Awaits i n j)
    (hp : j.spec.params = .attach p) : AttachLeaves s (nextJob s i) ∧
      ∀ k : LaneId, (nextJob s i).lane k = if k = i then ((s.lane i).taking n).attaching p else s.lane k := by
  have htaken : AttachLeaves s (s.taken i n) := ⟨rfl, rfl, rfl, rfl, rfl, rfl⟩
  obtain ⟨-, -, hothers⟩ := (taken_local s i n).trans (attachTakeUp_local (s.taken i n) i p)
  rw [h.nextJob_attach hp]
  refine ⟨htaken.trans (attachTakeUp_leaves _ i p), fun k => ?_⟩
  split
  · next hk => rw [hk, attachTakeUp_lane, taken_lane_self]
  · next hk => exact hothers k hk

/-- Every lane of a list takes the ATTACH up, each of them once (R57, R132; log 7). -/
theorem foldl_nextJob_attach {n : SlotId} {j : Job} {p : AttachParams} (hp : j.spec.params = .attach p)
    (hactive : j.state = .active) {l : List LaneId} (hn : l.Nodup) {s : State} (hj : s.slot n = some j)
    (hd : s.ctl.device ≠ .fault) (hq : ∀ i ∈ l, (s.lane i).queue = [n]) : AttachLeaves s (l.foldl nextJob s) ∧
      ∀ k : LaneId, (l.foldl nextJob s).lane k = if k ∈ l then ((s.lane k).taking n).attaching p else s.lane k := by
  induction l generalizing s with
  | nil => exact ⟨⟨rfl, rfl, rfl, rfl, rfl, rfl⟩, fun _ => rfl⟩
  | cons i l ih =>
    obtain ⟨hi, hn⟩ := List.nodup_cons.mp hn
    have hawaits : s.Awaits i n j := ⟨hq i List.mem_cons_self, hj, hactive, hd⟩
    obtain ⟨hleaves, hlane⟩ := hawaits.attach hp
    have hkept : ∀ k : LaneId, k ≠ i → (nextJob s i).lane k = s.lane k := fun k hk => (hlane k).trans (if_neg hk)
    obtain ⟨hrest, hlanes⟩ := ih (s := nextJob s i) hn ((State.slot_congr hleaves.slots n).trans hj)
      (by rw [hleaves.ctl]; exact hd) (fun k hk => by
        rw [hkept k (fun h => hi (h ▸ hk))]
        exact hq k (List.mem_cons_of_mem i hk))
    refine ⟨hleaves.trans hrest, fun k => (hlanes k).trans ?_⟩
    by_cases hk : k = i
    · rw [hk, if_neg hi, if_pos List.mem_cons_self, hlane i, if_pos rfl]
    · rw [hkept k hk]
      simp [hk]

/-- Settles O20: the claim, the placement ACTIVE, and the take-up lane by lane. -/
theorem attachIsTakenUpOnIdleLanes : Obligations.AttachIsTakenUpOnIdleLanes := by
  intro s r bytes j p n htaken hp hfree hroom hidle
  have hkind : j.params.kind = .attach := by rw [hp]; rfl
  have hlist : j.hasList = false := by simp [JobSpec.hasList, hkind]
  obtain ⟨v, hv⟩ : ∃ v : State, v = s.placing r j n := ⟨_, rfl⟩
  obtain ⟨u, hu⟩ : ∃ u : State, u = v.placedActive n (newJob r j) := ⟨_, rfl⟩
  have hvlane : ∀ k : LaneId, v.lane k = s.lane k := fun k => by rw [hv]; rfl
  have hmem : ∀ k : LaneId, k ∈ v.idleLanes j.lanes ↔ inSet j.lanes k = true ∧ (s.lane k).queue = [] := fun k => by
    rw [mem_idleLanes, hvlane]
  have hulane : ∀ k : LaneId, u.lane k =
      if inSet j.lanes k then { s.lane k with queue := (s.lane k).queue ++ [n] } else s.lane k := fun k => by
    rw [hu, placedActive_lane, hvlane]
    rfl
  have huslot : u.slot n = some { newJob r j with state := .active } := by
    rw [hu, placedActive_slot_self, ← hlist]
    rfl
  have hexec : exec (.recordReadEnd .live (.good bytes)) s = .next ((v.idleLanes j.lanes).foldl nextJob u) := by
    rw [htaken.exec_examine (by rw [hkind]; nofun) (by rw [hkind]; nofun) (by rw [hkind]; nofun),
      examine_claim hfree hroom, claim_noList hlist,
      place_laneJob withClaim_slot_self (show j.params.kind.hasLanes = true by rw [hkind]; rfl), hu, hv]
    exact congrArg Host.Outcome.next (placeLaneJob_active (s := s.placing r j n) (j := newJob r j) hidle)
  obtain ⟨hengine, hctl, hpool, hsupply, hwriter⟩ : u.intake.engine = .free ∧ u.ctl = s.ctl ∧ u.pool = s.pool ∧
      u.supply = s.supply ∧ u.writer = s.writer := by
    rw [hu, hv]
    exact ⟨rfl, rfl, rfl, rfl, rfl⟩
  have hdevice : u.ctl.device ≠ .fault := by
    rw [hctl]
    exact htaken.2.1
  have hqueues : ∀ i ∈ v.idleLanes j.lanes, (u.lane i).queue = [n] := fun i hi => by
    obtain ⟨hset, hq⟩ := (hmem i).mp hi
    rw [hulane, if_pos hset, hq]
    rfl
  obtain ⟨hleaves, hlanes⟩ := foldl_nextJob_attach (p := p) hp rfl (nodup_idleLanes v j.lanes) huslot hdevice hqueues
  have hother : ∀ k : LaneId, ¬ (inSet j.lanes k = true ∧ (s.lane k).queue = []) →
      ((v.idleLanes j.lanes).foldl nextJob u).lane k = u.lane k := fun k hk =>
    (hlanes k).trans (if_neg (mt (hmem k).mp hk))
  refine ⟨_, hexec, (State.slot_congr hleaves.slots n).trans huslot, fun m hm => ?_, ?_, by rw [hleaves.intake, hengine],
    hleaves.ctl.trans hctl, hleaves.pool.trans hpool, hleaves.supply.trans hsupply, hleaves.writer.trans hwriter,
    fun k hk => ?_, fun k hk hq => ?_, fun i hi hq => ?_⟩
  · rw [State.slot_congr hleaves.slots, hu, placedActive_slot_ne hm, hv, placing_slot_ne s r j n hm]
  · rw [State.ring_congr hleaves.intake, hu, hv]
    exact placing_ring_self s r j n
  · rw [hother k fun h => Bool.false_ne_true (hk.symm.trans h.1), hulane, if_neg (Bool.eq_false_iff.mp hk)]
  · rw [hother k fun h => hq h.2, hulane, if_pos hk]
  · have hl : (u.lane i).taking n = (s.lane i).taking n := by
      rw [hulane, if_pos hi]
      rfl
    have h := ((s.lane i).taking n).attaching_from p
    rw [hlanes i, if_pos ((hmem i).mpr ⟨hi, hq⟩), hl]
    exact ⟨h.queue, h.step, h.identity, h.unlocked, h.pinned, h.faultCode, h.attempts, h.vmin, h.vmax, h.outOfWindow,
      h.lastSample, h.pendingEvent, h.resetPin, h.power, fun hp => Lane.attaching_off (l := (s.lane i).taking n) hp p,
      fun hp => Lane.attaching_on (l := (s.lane i).taking n) hp p⟩

end Sys2Proof.Machine
end

section
/-! CERTIFICATES. The jobs that work inside a session, and DETACH with RUN, taken up in the happening of their placement: the
verdicts at once, and the first request (R32, R42, R59, R61 to R63, R67 to R70, R75, R132). -/

namespace Sys2Proof.Machine

/-! ### The two ways to be placed -/

namespace State.places

variable {s : State} {c : Instr} {n : SlotId} {j : Job} {i : LaneId}

/-- No lane of a job that is being placed has its outcome yet, and no image read of it has failed (R130, R131). -/
theorem fresh (h : s.places c n j) : (∀ k : LaneId, j.results[k.val] = none) ∧ j.imageFailed = none := by
  have hnone : ∀ k : LaneId, (Vector.replicate 16 (none : Option LaneResult))[k.val] = none :=
    fun k => Vector.getElem_replicate _
  obtain ⟨-, ⟨r, bytes, -, -, -, -, -, hj⟩ | ⟨bytes, k, -, -, -, -, -, -, -, hfailed, hresults, -, hj⟩⟩ := h
  · rw [hj]
    exact ⟨hnone, rfl⟩
  · rw [hj]
    dsimp only
    rw [hresults]
    exact ⟨hnone, hfailed⟩

/-- Every segment of a PROGRAM that is being placed has a byte at least (R131). -/
theorem segment_pos (h : s.places c n j) (hp : j.spec.params.kind = .program) {g : Segment} (hg : g ∈ j.list) :
    0 < g.length := by
  obtain ⟨-, ⟨r, bytes, -, -, -, -, hlist, -⟩ | ⟨bytes, k, -, -, -, -, -, -, -, -, -, hgood, hj⟩⟩ := h
  · simp [JobSpec.hasList, hp] at hlist
  · subst hj
    obtain ⟨m, hm⟩ := List.getElem?_of_mem hg
    have hfault := (listFault_eq_none_iff _ _ _).mp hgood m g hm
    rw [segmentFault_eq] at hfault
    by_contra hzero
    rw [if_pos (.inl (Nat.eq_zero_of_not_pos hzero))] at hfault
    cases hfault

/-- By either way the job's only lane, which has an empty queue, takes it up in that happening (R132). -/
theorem exec_alone (h : s.places c n j) (hlanes : j.spec.lanes = laneBit i) (hq : (s.lane i).queue = []) :
    ∃ u : State, exec c s = .next (nextJob u i) ∧ PlacedAlone s u i n j := by
  obtain ⟨hkind, ⟨r, bytes, rfl, htaken, hfree, hroom, hlist, hj⟩ |
    ⟨bytes, k, rfl, hk, hlength, hd, hstate, hread, habort, -, -, hgood, hj⟩⟩ := h
  · rw [hj]
    exact htaken.exec_alone hkind hlist hlanes hfree hq (hroom i ((inSet_laneBit_iff hlanes i).mpr rfl))
  · have hspec : k.spec = j.spec := by rw [hj]
    obtain ⟨u, hplace, hu⟩ := place_alone (s := s.setSlot n (some j)) (State.slot_setSlot_self s n _) hkind
      (by rw [hj]) hlanes hq hd
    refine ⟨u, ?_, ⟨hu.awaits, hu.lane, hu.leaves, fun m hm => (hu.slots m hm).trans (State.slot_setSlot_ne s hm _),
      hu.pool, hu.creds, hu.supply, hu.writer⟩⟩
    rw [exec_listReadEnd_placed hk hlength hd hstate hread habort hgood, ← hj, hplace]

end State.places

/-! ### A job that ends at once -/

/-- A job that has just been taken up has counted nothing (R30, R75). -/
theorem Lane.taking_counters (l : Lane) (n : SlotId) {p : Params} (ha : p.kind ≠ .attach) :
    (l.taking n).resultBody p true = .counters 0 0 0 0 := by
  unfold Lane.resultBody
  split
  case h_1 hk => exact absurd hk ha
  all_goals rfl

/-- A READY lane has its session for the job that it takes up (R32). -/
theorem Lane.taking_session {l : Lane} (n : SlotId) (h : l.state = .ready) : sessionMissing (l.taking n) = none := by
  unfold sessionMissing Lane.taking
  rw [h]

/-- A failed pre-check gives an outcome that is neither OK nor ABORTED, and names no NAK reason and no request (R59, R75). -/
theorem preCheck_verdict {d : Identity} {b : Bool} {j : Job} {v : Verdict} (h : preCheck d b j = some v) :
    v.nak = none ∧ v.kind = none ∧ v.outcome ≠ .ok ∧ v.outcome ≠ .aborted := by
  unfold preCheck at h
  split at h
  · obtain rfl := Option.some.inj h
    exact ⟨rfl, rfl, nofun, nofun⟩
  split at h
  · obtain rfl := Option.some.inj h
    exact ⟨rfl, rfl, nofun, nofun⟩
  split at h
  · obtain rfl := Option.some.inj h
    exact ⟨rfl, rfl, nofun, nofun⟩
  split at h
  · obtain rfl := Option.some.inj h
    exact ⟨rfl, rfl, nofun, nofun⟩
  · cases h

/-- The command `c` places the job and ends it at once on its only lane: the job is RETIRING with FAILED, and the lane stands
as it stood (R32, R56, R75). -/
def State.endsAtOnce (s : State) (c : Instr) (i : LaneId) (n : SlotId) (j : Job) (o : LaneOutcome)
    (a : Option (BitVec 32)) : Prop :=
  ∃ (t : State) (b : Job), exec c s = .next t ∧ t.slot n = some b ∧ b.state = .retiring ∧
    b.final = some { status := .failed, okMask := 0, failMask := j.spec.lanes } ∧
    t.resultOf n i = some { outcome := o, nak := none, kind := none, addr := a, sample := (s.lane i).lastSample
                            body := .counters 0 0 0 0 } ∧
    t.lane i = { (s.lane i).taking n with queue := [] } ∧ (∀ m : LaneId, m ≠ i → t.lane m = s.lane m) ∧
    (∀ m : SlotId, m ≠ n → t.slot m = s.slot m) ∧ t.ctl = s.ctl ∧ t.creds = s.creds ∧ t.supply = s.supply

/-- The command `c` places the job, and its only lane goes on with it: the lane stands as `x`, and the pool is `p` (R32). -/
def State.goesOnWith (s : State) (c : Instr) (i : LaneId) (n : SlotId) (j : Job) (p : Pool) (x : Lane) : Prop :=
  ∃ t : State, exec c s = .next t ∧ t.slot n = some { j with state := .active } ∧ t.lane i = x ∧
    (∀ m : LaneId, m ≠ i → t.lane m = s.lane m) ∧ (∀ m : SlotId, m ≠ n → t.slot m = s.slot m) ∧ t.ctl = s.ctl ∧
    t.pool = p ∧ t.creds = s.creds ∧ t.supply = s.supply ∧ t.writer = s.writer

/-- The command `c` places the job, and the lane stands in the step `st` that calls for a request: it goes out, or waits for
the readback write that an ended job has left in flight (R69). -/
def State.sendsFirst (s : State) (c : Instr) (i : LaneId) (n : SlotId) (j : Job) (p : Pool) (st : Step) (k : ReqKind)
    (payload : List Byte) : Prop :=
  (s.mayRequest i → s.goesOnWith c i n j p (Lane.withRequest { (s.lane i).taking n with step := st } k payload)) ∧
    ((s.lane i).readback ≠ none → s.goesOnWith c i n j p { (s.lane i).taking n with step := st })

/-- Lane `i` has taken up the job of slot `n` and stands in the step `st`, with the pool `p`. -/
def State.inStep (u : State) (i : LaneId) (n : SlotId) (p : Pool) (st : Step) : State :=
  ((u.taken i n).setPool p).modLane i (fun l => { l with step := st })

namespace PlacedAlone

variable {s u : State} {c : Instr} {i : LaneId} {n : SlotId} {j : Job} (h : PlacedAlone s u i n j)
include h

theorem taken_queue : ((u.taken i n).lane i).queue = [n] := by
  rw [h.taken_lane]
  rfl

/-- A verdict at once, neither OK nor ABORTED (R32, R59). -/
theorem endsAtOnce (hlanes : j.spec.lanes = laneBit i) (hopen : j.results[i.val] = none)
    (ha : j.spec.params.kind ≠ .attach) {v : Verdict} (hnak : v.nak = none) (hkind : v.kind = none) (hok : v.outcome ≠ .ok)
    (habort : v.outcome ≠ .aborted) (hexec : exec c s = .next (resolveStep i (u.taken i n, some v))) :
    s.endsAtOnce c i n j v.outcome v.addr := by
  have hpart : (u.taken i n).OnlyPart i n { j with state := .active } :=
    ⟨h.taken_queue, h.awaits.taken_slot, rfl, hlanes, hopen⟩
  have hend := resolveStep_endsOnlyJob (h.leaves.trans (taken_local u i n)) h.taken_queue h.awaits.taken_slot hopen v
  have hretires := hpart.retires_failed hok habort
  obtain ⟨b, hslot, hstate, hfinal⟩ := hretires.slot
  refine ⟨_, b, hexec, hslot, hstate, hfinal, ?_, ?_, hend.others, fun m hm => (hretires.slots m hm).trans (h.slots m hm),
    hend.ctl, hretires.creds.trans h.creds, hretires.supply.trans h.supply⟩
  · rw [hend.result, h.taken_lane]
    unfold Lane.result
    rw [Lane.taking_counters _ n ha, hnak, hkind]
    rfl
  · rw [hend.lane, h.taken_lane]
    rfl

/-- The lane alone and the pool have changed since the placement. -/
theorem goesOn {p : Pool} {x : Lane} (hexec : exec c s = .next (((u.taken i n).setPool p).setLane i x)) :
    s.goesOnWith c i n j p x := by
  obtain ⟨hctl, -, hothers⟩ := h.leaves
  refine ⟨_, hexec, h.awaits.slot, State.lane_setLane_self _ i x, fun m hm => ?_, h.slots, hctl, rfl, h.creds, h.supply,
    h.writer⟩
  exact (State.lane_setLane_ne _ hm _).trans ((State.lane_setLane_ne _ hm _).trans (hothers m hm))

theorem inStep_lane (p : Pool) (st : Step) : (u.inStep i n p st).lane i = { (s.lane i).taking n with step := st } := by
  unfold State.inStep
  rw [State.lane_modLane_self, State.setPool_lane, h.taken_lane]

theorem inStep_eq (p : Pool) (st : Step) :
    u.inStep i n p st = ((u.taken i n).setPool p).setLane i { (s.lane i).taking n with step := st } := by
  unfold State.inStep State.modLane
  rw [State.setPool_lane, h.taken_lane]

theorem inStep_currentJob (p : Pool) (st : Step) :
    currentJob (u.inStep i n p st) i = some (n, { j with state := .active }) :=
  currentJob_setStep (s := (u.taken i n).setPool p) h.taken_queue h.awaits.taken_slot st

/-- A step whose request is the first that the job sends (R21, R69). -/
theorem sendsFirst {p : Pool} {st : Step} {k : ReqKind} {payload : List Byte}
    (hproceed : proceed (u.inStep i n p st) i = (send (u.inStep i n p st) i k payload, none))
    (hexec : exec c s = .next (resolveStep i (proceed (u.inStep i n p st) i))) : s.sendsFirst c i n j p st k payload := by
  have hlane := h.inStep_lane p st
  obtain ⟨hctl, -, -⟩ := h.leaves
  rw [hproceed, resolveStep_none] at hexec
  refine ⟨fun ⟨ho, htx, hs, hr, hd⟩ => h.goesOn ?_, fun hr => h.goesOn ?_⟩
  · have hmay : (u.inStep i n p st).mayRequest i := by
      unfold State.mayRequest
      rw [hlane]
      exact ⟨ho, htx, hs, hr, h.awaits.device⟩
    rw [hexec, send_of_mayRequest hmay, hlane, h.inStep_eq, State.setLane_setLane]
  · rw [hexec, send_of_readback _ i k payload (by rw [hlane]; exact hr), h.inStep_eq]

/-- A step that is entered with the take-up, the pool as it was. -/
theorem enterStep_taken (st : Step) : enterStep (u.taken i n) i st = proceed (u.inStep i n s.pool st) i := by
  have hpool : (u.taken i n).setPool s.pool = u.taken i n := by
    rw [← h.pool]
    rfl
  unfold State.inStep
  rw [hpool]
  rfl

/-! ### The session -/

section Session

variable (hk : j.spec.params.kind = .erase ∨ j.spec.params.kind = .program ∨ j.spec.params.kind = .verify ∨
  j.spec.params.kind = .readback ∨ j.spec.params.kind = .protect)
include hk

/-- A lane without a session ends the job at once (R32). -/
theorem nextJob_missing {o : LaneOutcome} (ho : sessionMissing (s.lane i) = some o) :
    nextJob u i = resolveStep i (u.taken i n, some (Verdict.plain o)) := by
  have hmissing : sessionMissing ((s.lane i).taking n) = some o := ho
  rw [h.awaits.nextJob_session hk, sessionJobTakeUp, h.taken_lane, hmissing]

variable {d : Identity} (hready : (s.lane i).state = .ready) (hid : (s.lane i).identity = some d)
include hready hid

/-- A failed pre-check ends the job at once (R59). -/
theorem nextJob_refused {v : Verdict} (hv : preCheck d (s.lane i).unlocked j = some v) :
    nextJob u i = resolveStep i (u.taken i n, some v) := by
  have hsession := Lane.taking_session n hready
  have hidentity : ((s.lane i).taking n).identityOr = d := Lane.identityOr_of_some hid
  have hcheck : preCheck d ((s.lane i).taking n).unlocked { j with state := .active } = some v := hv
  rw [h.awaits.nextJob_session hk, sessionJobTakeUp, h.taken_lane, hsession]
  dsimp only
  rw [hidentity, hcheck]

/-- A job whose pre-checks pass takes its first step (R59). -/
theorem nextJob_passed (hv : preCheck d (s.lane i).unlocked j = none) :
    nextJob u i = resolveStep i (firstStep (u.taken i n) i n { j with state := .active }) := by
  have hsession := Lane.taking_session n hready
  have hidentity : ((s.lane i).taking n).identityOr = d := Lane.identityOr_of_some hid
  have hcheck : preCheck d ((s.lane i).taking n).unlocked { j with state := .active } = none := hv
  rw [h.awaits.nextJob_session hk, sessionJobTakeUp, h.taken_lane, hsession]
  dsimp only
  rw [hidentity, hcheck]

end Session

end PlacedAlone

end Sys2Proof.Machine
end

section
/-! CERTIFICATES. The first step of each job that works inside a session, and of DETACH with RUN (R42, R59, R61 to R63, R67
to R70, R80, R84). -/

namespace Sys2Proof.Machine

/-! ### A PROGRAM's window -/

/-- No block of the slot's job has been read yet: they are all FETCHING, their reads not issued (R80, R83). -/
def Pool.unread (p : Pool) (n : SlotId) : Prop :=
  ∀ (b : BlockId) (x : Block), p.block b = some x → x.slot = n → x.state = .waiting

/-- A block joins those of the slot's job only while its read has not been issued. -/
theorem Pool.unread.setBlock {p : Pool} {n : SlotId} (h : p.unread n) (b : BlockId) {k : Block}
    (hk : k.slot = n → k.state = .waiting) : (p.setBlock b (some k)).unread n := by
  intro a x ha hx
  rw [Pool.block_setBlock] at ha
  split at ha
  · obtain rfl := Option.some.inj ha
    exact hk hx
  · exact h a x ha hx

/-- A block that a window asks for is joined as it is, or created FETCHING (R80). -/
theorem Pool.unread.want {p : Pool} {n : SlotId} (h : p.unread n) (list : List Segment) (i : LaneId) (key : Nat × Nat) :
    (Pool.want n list i p key).unread n := by
  unfold Pool.want
  split
  · split
    · next k hb => exact Pool.unread.setBlock h _ (h _ k hb)
    · exact h
  · split
    · next b _ _ _ _ => exact Pool.unread.setBlock h b fun _ => rfl
    · exact h

/-- The window of a job that has no block yet holds none that is READY (R79, R80). -/
theorem Pool.unread.window {p : Pool} {n : SlotId} (h : p.unread n) (list : List Segment) (i : LaneId)
    (keys : List (Nat × Nat)) : (keys.foldl (Pool.want n list i) p).unread n :=
  List.foldlRecOn (motive := fun q => q.unread n) keys (Pool.want n list i) h fun _ hq key _ =>
    Pool.unread.want hq list i key

/-! ### The covering sectors -/

/-- With nothing erased yet the covering sectors are all those that the segment touches, one at least (R63). -/
theorem coveringSectors_fresh {d : Identity} {g : Segment} (hsize : 0 < d.sectorSize.toNat) (hg : 0 < g.length) :
    coveringSectors d 0 g = ((g.target.toNat - d.flashBase.toNat) / d.sectorSize.toNat,
      (g.target.toNat + g.length - 1 - d.flashBase.toNat) / d.sectorSize.toNat + 1 -
        (g.target.toNat - d.flashBase.toNat) / d.sectorSize.toNat) ∧
    (g.target.toNat + g.length - 1 - d.flashBase.toNat) / d.sectorSize.toNat + 1 -
        (g.target.toNat - d.flashBase.toNat) / d.sectorSize.toNat ≠ 0 := by
  have hzero : (0 - d.flashBase.toNat + (d.sectorSize.toNat - 1)) / d.sectorSize.toNat = 0 :=
    Nat.div_eq_of_lt (by omega)
  have hle : (g.target.toNat - d.flashBase.toNat) / d.sectorSize.toNat ≤
      (g.target.toNat + g.length - 1 - d.flashBase.toNat) / d.sectorSize.toNat := Nat.div_le_div_right (by omega)
  refine ⟨?_, by omega⟩
  unfold coveringSectors
  dsimp only
  rw [hzero, Nat.max_zero]

/-- With covering sectors left the erase step asks for the next ERASE (R63). -/
theorem programErase_asks {s : State} {i : LaneId} {n : SlotId} {k : Nat} {g : Segment} {d : Identity} {low count : Nat}
    (hd : (s.lane i).identity = some d) (hcover : coveringSectors d (s.lane i).erasedThrough g = (low, count))
    (hcount : count ≠ 0) : programErase s i n k g = send s i .erase
      (beBytes 4 (d.flashBase.toNat + low * d.sectorSize.toNat) ++ [BitVec.ofNat 8 (min 255 count)]) := by
  unfold programErase
  rw [Lane.identityOr_of_some hd]
  dsimp only
  rw [hcover]
  dsimp only
  rw [if_neg hcount]
  rfl

namespace PlacedAlone

variable {s u : State} {c : Instr} {i : LaneId} {n : SlotId} {j : Job} (h : PlacedAlone s u i n j)
include h

theorem inStep_identity {d : Identity} (hid : (s.lane i).identity = some d) (p : Pool) (st : Step) :
    ((u.inStep i n p st).lane i).identityOr = d :=
  Lane.identityOr_of_some (by rw [h.inStep_lane]; exact hid)

/-! ### The first requests -/

section Request

variable (hexec : exec c s = .next (resolveStep i (firstStep (u.taken i n) i n { j with state := .active })))
include hexec

/-- The first step of a job other than a PROGRAM calls for a request. -/
theorem sendsFirst_of_firstStep {st : Step} {k : ReqKind} {payload : List Byte}
    (hfirst : firstStep (u.taken i n) i n { j with state := .active } = enterStep (u.taken i n) i st)
    (hproceed : proceed (u.inStep i n s.pool st) i = (send (u.inStep i n s.pool st) i k payload, none)) :
    s.sendsFirst c i n j s.pool st k payload := by
  rw [hfirst, h.enterStep_taken] at hexec
  exact h.sendsFirst hproceed hexec

theorem sendsFirst_protect {level : BitVec 8} (hp : j.spec.params = .protect level) :
    s.sendsFirst c i n j s.pool .protect .protect [level] := by
  refine h.sendsFirst_of_firstStep hexec ?_ (proceed_protect (h.inStep_currentJob _ _) (by rw [h.inStep_lane]) hp)
  unfold firstStep
  dsimp only
  rw [hp]

theorem sendsFirst_readback {target : BitVec 32} {len stride : Nat} {dest : BitVec 64}
    (hp : j.spec.params = .readback target len dest stride) : s.sendsFirst c i n j s.pool (.readbackRead 0) .read
      (beBytes 4 target.toNat ++ beBytes 2 (min 128 len)) := by
  refine h.sendsFirst_of_firstStep hexec ?_ (proceed_read (off := 0) (h.inStep_currentJob _ _) (by rw [h.inStep_lane]) hp)
  unfold firstStep
  dsimp only
  rw [hp]

theorem sendsFirst_verify {g : Segment} {rest : List Segment} (hp : j.spec.params = .verify) (hg : j.list = g :: rest) :
    s.sendsFirst c i n j s.pool (.verifySum 0) .sum (beBytes 4 g.target.toNat ++ beBytes 4 g.length) := by
  refine h.sendsFirst_of_firstStep hexec ?_ (proceed_sum (k := 0) (g := g) (h.inStep_currentJob _ _)
    (.inr (by rw [h.inStep_lane])) (by rw [hg]; rfl))
  unfold firstStep
  dsimp only
  rw [hp]

section Identified

variable {d : Identity} (hid : (s.lane i).identity = some d)
include hid

theorem sendsFirst_eraseAll (hp : j.spec.params = .erase) (hall : j.spec.flags.getLsbD 2 = true) :
    s.sendsFirst c i n j s.pool .eraseAll .erase (beBytes 4 d.flashBase.toNat ++ [0]) := by
  have hall : j.spec.eraseAll = true := hall
  have hproceed := proceed_eraseAll (h.inStep_currentJob s.pool .eraseAll) (by rw [h.inStep_lane])
  rw [h.inStep_identity hid] at hproceed
  refine h.sendsFirst_of_firstStep hexec ?_ hproceed
  unfold firstStep
  dsimp only
  rw [hp]
  dsimp only
  rw [if_pos hall]

theorem sendsFirst_eraseRegion (hp : j.spec.params = .erase) (hall : j.spec.flags.getLsbD 2 = false) {g : Segment}
    {rest : List Segment} (hg : j.list = g :: rest) : s.sendsFirst c i n j s.pool (.eraseRegion 0 0) .erase
      (beBytes 4 g.target.toNat ++ [BitVec.ofNat 8 (min 255 (g.length / d.sectorSize.toNat))]) := by
  have hall : ¬ j.spec.eraseAll = true := Bool.eq_false_iff.mp hall
  have hproceed := proceed_eraseRegion (k := 0) (done := 0) (g := g) (h.inStep_currentJob s.pool (.eraseRegion 0 0))
    (by rw [h.inStep_lane]) (by rw [hg]; rfl)
  rw [h.inStep_identity hid, Nat.zero_mul] at hproceed
  refine h.sendsFirst_of_firstStep hexec ?_ hproceed
  unfold firstStep
  dsimp only
  rw [hp]
  dsimp only
  rw [if_neg hall]

end Identified

/-! ### PROGRAM -/

section Program

variable (hp : j.spec.params = .program) (hfailed : j.imageFailed = none)
include hp hfailed

/-- A PROGRAM fills its window and enters the first segment (R62, R79). -/
theorem exec_program : exec c s = .next (resolveStep i (proceed
    (u.inStep i n ((keysFrom j.list 7 (0, 0)).foldl (Pool.want n j.list i) s.pool) (segmentStep j.spec 0)) i)) := by
  have hfill : fillWindow (u.taken i n) i n { j with state := .active } =
      (u.taken i n).setPool ((keysFrom j.list 7 (0, 0)).foldl (Pool.want n j.list i) s.pool) := by
    unfold fillWindow
    rw [h.taken_lane, ← h.pool]
    rfl
  have hsound : ¬ j.imageFailed.isSome = true := by
    rw [hfailed]
    exact Bool.false_ne_true
  rw [hexec]
  unfold firstStep
  dsimp only
  rw [hp]
  dsimp only
  rw [if_neg hsound, hfill]
  rfl

/-- Without ERASE_BEFORE the lane waits for its first block (R62, R84). -/
theorem goesOn_programWrite (hunread : s.pool.unread n) (herase : j.spec.flags.getLsbD 3 = false) {g : Segment}
    {rest : List Segment} (hg : j.list = g :: rest) :
    s.goesOnWith c i n j ((keysFrom j.list 7 (0, 0)).foldl (Pool.want n j.list i) s.pool)
      { (s.lane i).taking n with step := .programWrite 0 } := by
  obtain ⟨p, hpool⟩ : ∃ p : Pool, p = (keysFrom j.list 7 (0, 0)).foldl (Pool.want n j.list i) s.pool := ⟨_, rfl⟩
  have hwaits : p.unread n := by
    rw [hpool]
    exact Pool.unread.window hunread j.list i _
  have hstep : segmentStep j.spec 0 = .programWrite 0 := if_neg (Bool.eq_false_iff.mp herase)
  have hchunk : sendChunk (u.inStep i n p (.programWrite 0)) i n g = u.inStep i n p (.programWrite 0) :=
    sendChunk_of_notReady fun b x data hb hx _ _ hready => by
      rw [hwaits b x hb hx] at hready
      cases hready
  have hgo := h.exec_program hexec hp hfailed
  rw [hstep, ← hpool, proceed_programWrite (g := g) (h.inStep_currentJob _ _) (by rw [h.inStep_lane]) (by rw [hg]; rfl),
    hchunk, resolveStep_none, h.inStep_eq] at hgo
  rw [← hpool]
  exact h.goesOn hgo

/-- With ERASE_BEFORE the first request erases the sectors that cover the first segment (R63). -/
theorem sendsFirst_programErase {d : Identity} (hid : (s.lane i).identity = some d) (herase : j.spec.flags.getLsbD 3 = true)
    (hsize : 0 < d.sectorSize.toNat) {g : Segment} {rest : List Segment} (hg : j.list = g :: rest) (hpos : 0 < g.length) :
    s.sendsFirst c i n j ((keysFrom j.list 7 (0, 0)).foldl (Pool.want n j.list i) s.pool) (.programErase 0) .erase
      (beBytes 4 (d.flashBase.toNat + (g.target.toNat - d.flashBase.toNat) / d.sectorSize.toNat * d.sectorSize.toNat) ++
        [BitVec.ofNat 8 (min 255 ((g.target.toNat + g.length - 1 - d.flashBase.toNat) / d.sectorSize.toNat + 1 -
          (g.target.toNat - d.flashBase.toNat) / d.sectorSize.toNat))]) := by
  obtain ⟨p, hpool⟩ : ∃ p : Pool, p = (keysFrom j.list 7 (0, 0)).foldl (Pool.want n j.list i) s.pool := ⟨_, rfl⟩
  obtain ⟨hcover, hcount⟩ := coveringSectors_fresh hsize hpos
  have hstep : segmentStep j.spec 0 = .programErase 0 := if_pos herase
  have hgo := h.exec_program hexec hp hfailed
  rw [hstep, ← hpool] at hgo
  rw [← hpool]
  refine h.sendsFirst ?_ hgo
  rw [proceed_programErase (g := g) (h.inStep_currentJob _ _) (by rw [h.inStep_lane]) (by rw [hg]; rfl),
    programErase_asks (d := d) (by rw [h.inStep_lane]; exact hid) (by rw [h.inStep_lane]; exact hcover) hcount]

end Program

end Request

/-- DETACH with RUN sends START on a READY lane (R42). -/
theorem sendsFirst_start {e : BitVec 32} (hp : j.spec.params = .detach e) (hrun : j.spec.flags.getLsbD 1 = true)
    (hready : (s.lane i).state = .ready) (hexec : exec c s = .next (nextJob u i)) :
    s.sendsFirst c i n j s.pool .detachStart .start (beBytes 4 e.toNat) := by
  have hstate : (u.lane i).state = .ready := by
    rw [h.lane]
    exact hready
  rw [h.awaits.nextJob_detachRun hp hrun, if_pos hstate, h.enterStep_taken] at hexec
  exact h.sendsFirst (proceed_start (h.inStep_currentJob _ _) (by rw [h.inStep_lane]) hp) hexec

end PlacedAlone

/-- A DETACH has its entry address as its parameter (R127). -/
theorem Params.detach_of_kind {p : Params} (h : p.kind = .detach) : ∃ e : BitVec 32, p = .detach e := by
  cases p with
  | detach e => exact ⟨e, rfl⟩
  | _ => cases h

/-- The kinds whose records have no parameters beside the list (R127). -/
theorem Params.of_listKind {p : Params} : (p.kind = .erase → p = .erase) ∧ (p.kind = .program → p = .program) ∧
    (p.kind = .verify → p = .verify) := by
  cases p <;> simp [Params.kind]

/-- Settles O22: the placement, and for each kind the verdict at once or the first request. -/
theorem jobsAreTakenUpOnAnIdleLane : Obligations.JobsAreTakenUpOnAnIdleLane := by
  intro s c n j i hplaces hlanes hq l kind run inSession ends goesOn sends
  obtain ⟨u, hexec, h⟩ := hplaces.exec_alone hlanes hq
  obtain ⟨hresults, hfailed⟩ := hplaces.fresh
  have hsession : inSession → kind ≠ .attach := by
    rintro (hk | hk | hk | hk | hk) ha <;> cases hk.symm.trans ha
  have hends : kind ≠ .attach → ∀ v : Verdict, v.nak = none → v.kind = none → v.outcome ≠ .ok →
      v.outcome ≠ .aborted → nextJob u i = resolveStep i (u.taken i n, some v) → ends v.outcome v.addr :=
    fun ha v hnak hkind hok habort hnext => h.endsAtOnce hlanes (hresults i) ha hnak hkind hok habort (by rw [hexec, hnext])
  have hmissing : inSession → ∀ o : LaneOutcome, sessionMissing l = some o → o ≠ .ok → o ≠ .aborted →
      ends o none := fun hk o ho hok habort =>
    hends (hsession hk) (Verdict.plain o) rfl rfl hok habort (h.nextJob_missing hk ho)
  refine ⟨fun hk hs => ?_, fun hk hs => ?_, fun ⟨hk, hflag⟩ hs => ?_, fun e hrun hs hp => ?_,
    fun d hs hid => ⟨fun v hk hv => ?_, fun hv => ?_⟩⟩
  · exact hmissing hk .laneFaulted (by unfold sessionMissing; rw [hs]) nofun nofun
  · exact hmissing hk .notAttached (by unfold sessionMissing; rcases hs with hs | hs <;> rw [hs]) nofun nofun
  · obtain ⟨e, hp⟩ := Params.detach_of_kind hk
    have hstate : ¬ (u.lane i).state = .ready := by
      rw [h.lane]
      rcases hs with hs | hs | hs <;> exact fun hr => by cases hs.symm.trans hr
    refine hends (fun ha => by cases hk.symm.trans ha) (Verdict.plain .notAttached) rfl rfl nofun nofun ?_
    rw [h.awaits.nextJob_detachRun hp hflag, if_neg hstate]
  · exact h.sendsFirst_start hp hrun.2 hs hexec
  · obtain ⟨hnak, hkind, hok, habort⟩ := preCheck_verdict hv
    exact hends (hsession hk) v hnak hkind hok habort (h.nextJob_refused hk hs hid hv)
  have hfirst : inSession → exec c s = .next (resolveStep i (firstStep (u.taken i n) i n { j with state := .active })) :=
    fun hk => by rw [hexec, h.nextJob_passed hk hs hid hv]
  obtain ⟨eraseOf, programOf, verifyOf⟩ := Params.of_listKind (p := j.spec.params)
  refine ⟨fun level hp => ?_, fun target len stride dest hp => ?_, fun hk hall => ?_, fun g rest hg =>
    ⟨fun hk => ?_, fun hk hall => ?_, ?_⟩⟩
  · exact h.sendsFirst_protect (hfirst (by simp [inSession, kind, hp, Params.kind])) hp
  · exact h.sendsFirst_readback (hfirst (by simp [inSession, kind, hp, Params.kind])) hp
  · exact h.sendsFirst_eraseAll (hfirst (.inl hk)) hid (eraseOf hk) hall
  · exact h.sendsFirst_verify (hfirst (.inr (.inr (.inl hk)))) (verifyOf hk) hg
  · exact h.sendsFirst_eraseRegion (hfirst (.inl hk)) hid (eraseOf hk) hall hg
  · intro hk hunused filled first last
    have hprogram := hfirst (.inr (.inl hk))
    refine ⟨fun hbefore => ?_, fun hbefore hsize => ?_⟩
    · exact h.goesOn_programWrite hprogram (programOf hk) hfailed (fun b x hb hx => absurd hx (hunused b x hb)) hbefore hg
    · exact h.sendsFirst_programErase hprogram (programOf hk) hfailed hid hbefore hsize hg
        (hplaces.segment_pos hk (by rw [hg]; exact List.mem_cons_self))

end Sys2Proof.Machine
end
